-- ==== Sys2Proof/Word.lean ====
section
/-! DEFINITION. The two word types of the core (00_scope.md R13, R15): a byte and a 16-bit word. -/

namespace Sys2Proof

/-- An 8-bit value: A, X, Y, SP, a memory cell, an operand byte (R15). -/
abbrev Byte := BitVec 8

/-- A 16-bit value: PC or an address (R15). -/
abbrev Word := BitVec 16

end Sys2Proof
end

