-- ==== Sys2Proof/Config.lean ====
section
/-! DEFINITION. What an implementation fixes: the nine configuration parameters of 00_scope.md R14, with the
types their values need. The default values stand in Sys2Proof/Decode.lean (`Config.default`). -/

namespace Sys2Proof

/-- The 56 documented mnemonics and the pseudo-instruction RES (30_encoding.md R79). -/
inductive Mnemonic where
  | lda | ldx | ldy | tax | tay | txa | tya | tsx | txs | sta | stx | sty
  | pha | php | pla | plp
  | and | eor | ora | bit
  | adc | sbc | cmp | cpx | cpy
  | inc | inx | iny | dec | dex | dey
  | asl | lsr | rol | ror
  | bcc | bcs | beq | bmi | bne | bpl | bvc | bvs
  | jmp | jsr | rts
  | clc | cld | cli | clv | sec | sed | sei | brk | rti | res | nop
deriving DecidableEq, Repr

/-- The thirteen modes of 30_encoding.md R75: the eleven of the resolver, implied and accumulator. -/
inductive Mode where
  | implied | accumulator | immediate
  | zeroPage | zeroPageX | zeroPageY
  | absolute | absoluteX | absoluteY
  | indexedIndirect | indirectIndexed | indirect | relative
deriving DecidableEq, Repr

/-- The modes that each mnemonic's rule in files 41 to 49 defines (30_encoding.md R79). -/
def Mnemonic.modes : Mnemonic → List Mode
  | .lda | .and | .eor | .ora | .adc | .sbc | .cmp =>
    [.immediate, .zeroPage, .zeroPageX, .absolute, .absoluteX, .absoluteY, .indexedIndirect, .indirectIndexed]
  | .ldx => [.immediate, .zeroPage, .zeroPageY, .absolute, .absoluteY]
  | .ldy => [.immediate, .zeroPage, .zeroPageX, .absolute, .absoluteX]
  | .tax | .tay | .txa | .tya | .tsx | .txs | .pha | .php | .pla | .plp | .inx | .iny | .dex | .dey | .rts
  | .clc | .cld | .cli | .clv | .sec | .sed | .sei | .brk | .rti | .res | .nop => [.implied]
  | .sta => [.zeroPage, .zeroPageX, .absolute, .absoluteX, .absoluteY, .indexedIndirect, .indirectIndexed]
  | .stx => [.zeroPage, .zeroPageY, .absolute]
  | .sty => [.zeroPage, .zeroPageX, .absolute]
  | .bit => [.zeroPage, .absolute]
  | .cpx | .cpy => [.immediate, .zeroPage, .absolute]
  | .inc | .dec => [.zeroPage, .zeroPageX, .absolute, .absoluteX]
  | .asl | .lsr | .rol | .ror => [.accumulator, .zeroPage, .zeroPageX, .absolute, .absoluteX]
  | .bcc | .bcs | .beq | .bmi | .bne | .bpl | .bvc | .bvs => [.relative]
  | .jmp => [.absolute, .indirect]
  | .jsr => [.absolute]

/-- A (mnemonic, mode) pair that a rule defines: the only pairs a DISPATCH entry may hold (R79). -/
def legalPair (mn : Mnemonic) (mode : Mode) : Bool := decide (mode ∈ mn.modes)

/-- One record of the opcode table (30_encoding.md R78): a byte and the pair it selects. "A model refuses to build a table
with any other pair" (R79): a record of a pair that no rule defines is no value of this type. -/
structure OpRow where
  opcode   : Byte
  mnemonic : Mnemonic
  mode     : Mode
  legal    : legalPair mnemonic mode = true
deriving DecidableEq, Repr

/-- DECIMAL_POLICY: what ADC and SBC do when D = 1 (R14). -/
inductive DecimalPolicy where
  | binary | refuse
deriving DecidableEq, Repr

/-- RESET_CZVN: the values of C, Z, V and N after reset (R14). -/
structure ResetFlags where
  c : Bool
  z : Bool
  v : Bool
  n : Bool
deriving DecidableEq, Repr

/-- The configuration parameters of R14, in its order. Configuration is not state (10_state.md R28): no step
writes it. The model carries it in a field of State (DESIGN CHOICE, log entry 2), so that a claim about every
state is a claim about every setting. -/
structure Config where
  /-- DISPATCH, as its records; the first record of a byte counts, a byte without one is empty (R7, R78). -/
  dispatch       : List OpRow
  /-- RES_OPCODE: the byte, if any, that runs the reset sequence (R103). -/
  resOpcode      : Option Byte
  /-- RESET_SP. -/
  resetSp        : Byte
  /-- RESET_CZVN. -/
  resetCzvn      : ResetFlags
  /-- RESET_B. -/
  resetB         : Bool
  /-- JMP_IND_PAGE_WRAP (R96). -/
  jmpIndPageWrap : Bool
  /-- NOP_SKIPS_BYTE (R165). -/
  nopSkipsByte   : Bool
  /-- BRK_SIGNATURE (R163). -/
  brkSignature   : Bool
  /-- DECIMAL_POLICY (R127, R128). -/
  decimalPolicy  : DecimalPolicy
deriving DecidableEq, Repr

end Sys2Proof
end

