-- ==== Sys2Proof/Syntax.lean ====
section
/-! DEFINITION. Instr: one constructor for each of the 152 rows of the opcode table (30_encoding.md R79, R80, R103).
A constructor carries the operand bytes its mode has (R75, R76): `v` an immediate value, `b` a zero-page byte,
`a` an absolute address or pointer (low byte first in memory), `off` a branch offset as its raw byte.
The byte BRK skips (and NOP under NOP_SKIPS_BYTE) is no operand: its value is ignored (R163, R165; log entry 11). -/

namespace Sys2Proof

inductive Instr where
  -- LDA (R106)
  | ldaImm (v : Byte)
  | ldaZp (b : Byte)
  | ldaZpX (b : Byte)
  | ldaAbs (a : Word)
  | ldaAbsX (a : Word)
  | ldaAbsY (a : Word)
  | ldaIndX (b : Byte)
  | ldaIndY (b : Byte)
  -- LDX (R107)
  | ldxImm (v : Byte)
  | ldxZp (b : Byte)
  | ldxZpY (b : Byte)
  | ldxAbs (a : Word)
  | ldxAbsY (a : Word)
  -- LDY (R108)
  | ldyImm (v : Byte)
  | ldyZp (b : Byte)
  | ldyZpX (b : Byte)
  | ldyAbs (a : Word)
  | ldyAbsX (a : Word)
  -- TAX (R109)
  | tax
  -- TAY (R110)
  | tay
  -- TXA (R111)
  | txa
  -- TYA (R112)
  | tya
  -- TSX (R113)
  | tsx
  -- TXS (R114)
  | txs
  -- STA (R115)
  | staZp (b : Byte)
  | staZpX (b : Byte)
  | staAbs (a : Word)
  | staAbsX (a : Word)
  | staAbsY (a : Word)
  | staIndX (b : Byte)
  | staIndY (b : Byte)
  -- STX (R116)
  | stxZp (b : Byte)
  | stxZpY (b : Byte)
  | stxAbs (a : Word)
  -- STY (R117)
  | styZp (b : Byte)
  | styZpX (b : Byte)
  | styAbs (a : Word)
  -- PHA (R118)
  | pha
  -- PHP (R119)
  | php
  -- PLA (R120)
  | pla
  -- PLP (R121)
  | plp
  -- AND (R122)
  | andImm (v : Byte)
  | andZp (b : Byte)
  | andZpX (b : Byte)
  | andAbs (a : Word)
  | andAbsX (a : Word)
  | andAbsY (a : Word)
  | andIndX (b : Byte)
  | andIndY (b : Byte)
  -- EOR (R123)
  | eorImm (v : Byte)
  | eorZp (b : Byte)
  | eorZpX (b : Byte)
  | eorAbs (a : Word)
  | eorAbsX (a : Word)
  | eorAbsY (a : Word)
  | eorIndX (b : Byte)
  | eorIndY (b : Byte)
  -- ORA (R124)
  | oraImm (v : Byte)
  | oraZp (b : Byte)
  | oraZpX (b : Byte)
  | oraAbs (a : Word)
  | oraAbsX (a : Word)
  | oraAbsY (a : Word)
  | oraIndX (b : Byte)
  | oraIndY (b : Byte)
  -- BIT (R125)
  | bitZp (b : Byte)
  | bitAbs (a : Word)
  -- ADC (R127)
  | adcImm (v : Byte)
  | adcZp (b : Byte)
  | adcZpX (b : Byte)
  | adcAbs (a : Word)
  | adcAbsX (a : Word)
  | adcAbsY (a : Word)
  | adcIndX (b : Byte)
  | adcIndY (b : Byte)
  -- SBC (R128)
  | sbcImm (v : Byte)
  | sbcZp (b : Byte)
  | sbcZpX (b : Byte)
  | sbcAbs (a : Word)
  | sbcAbsX (a : Word)
  | sbcAbsY (a : Word)
  | sbcIndX (b : Byte)
  | sbcIndY (b : Byte)
  -- CMP (R130)
  | cmpImm (v : Byte)
  | cmpZp (b : Byte)
  | cmpZpX (b : Byte)
  | cmpAbs (a : Word)
  | cmpAbsX (a : Word)
  | cmpAbsY (a : Word)
  | cmpIndX (b : Byte)
  | cmpIndY (b : Byte)
  -- CPX (R131)
  | cpxImm (v : Byte)
  | cpxZp (b : Byte)
  | cpxAbs (a : Word)
  -- CPY (R132)
  | cpyImm (v : Byte)
  | cpyZp (b : Byte)
  | cpyAbs (a : Word)
  -- INC (R133)
  | incZp (b : Byte)
  | incZpX (b : Byte)
  | incAbs (a : Word)
  | incAbsX (a : Word)
  -- INX (R134)
  | inx
  -- INY (R135)
  | iny
  -- DEC (R136)
  | decZp (b : Byte)
  | decZpX (b : Byte)
  | decAbs (a : Word)
  | decAbsX (a : Word)
  -- DEX (R137)
  | dex
  -- DEY (R138)
  | dey
  -- ASL (R140)
  | aslAcc
  | aslZp (b : Byte)
  | aslZpX (b : Byte)
  | aslAbs (a : Word)
  | aslAbsX (a : Word)
  -- LSR (R141)
  | lsrAcc
  | lsrZp (b : Byte)
  | lsrZpX (b : Byte)
  | lsrAbs (a : Word)
  | lsrAbsX (a : Word)
  -- ROL (R142)
  | rolAcc
  | rolZp (b : Byte)
  | rolZpX (b : Byte)
  | rolAbs (a : Word)
  | rolAbsX (a : Word)
  -- ROR (R143)
  | rorAcc
  | rorZp (b : Byte)
  | rorZpX (b : Byte)
  | rorAbs (a : Word)
  | rorAbsX (a : Word)
  -- BCC (R145)
  | bcc (off : Byte)
  -- BCS (R146)
  | bcs (off : Byte)
  -- BEQ (R147)
  | beq (off : Byte)
  -- BMI (R148)
  | bmi (off : Byte)
  -- BNE (R149)
  | bne (off : Byte)
  -- BPL (R150)
  | bpl (off : Byte)
  -- BVC (R151)
  | bvc (off : Byte)
  -- BVS (R152)
  | bvs (off : Byte)
  -- JMP (R153)
  | jmpAbs (a : Word)
  | jmpInd (a : Word)
  -- JSR (R154)
  | jsr (a : Word)
  -- RTS (R155)
  | rts
  -- CLC (R156)
  | clc
  -- CLD (R157)
  | cld
  -- CLI (R158)
  | cli
  -- CLV (R159)
  | clv
  -- SEC (R160)
  | sec
  -- SED (R161)
  | sed
  -- SEI (R162)
  | sei
  -- BRK (R163)
  | brk
  -- RTI (R164)
  | rti
  -- RES (R166)
  | res
  -- NOP (R165)
  | nop
deriving DecidableEq, Repr

end Sys2Proof
end

