-- ==== Sys2Proof/Decode.lean ====
section
/-! DEFINITION. Decoding and encoding (30_encoding.md): byte-order helpers, the default opcode map, dispatch, the decoder
(total on any bytes, rejecting by name) and, after it, the encoder. -/

namespace Sys2Proof

/-! ## Byte order and extension (00_scope.md R15) -/

/-- `lo(w) = w[7:0]`. -/
def lo (w : Word) : Byte := BitVec.ofNat 8 w.toNat

/-- `hi(w) = w[15:8]`. -/
def hi (w : Word) : Byte := BitVec.ofNat 8 (w.toNat / 256)

/-- `word(l, h) = h * 256 + l`. -/
def word (l h : Byte) : Word := BitVec.ofNat 16 (h.toNat * 256 + l.toNat)

/-- `zext_16(b)`: high byte 0. -/
def zext16 (b : Byte) : Word := b.setWidth 16

/-- `sext_16(b)`: b as a two's-complement number. -/
def sext16 (b : Byte) : Word := b.signExtend 16

/-! ## Instructions as (mnemonic, mode, operand bytes) -/

/-- The pair of the opcode table and the operand bytes, in memory order, of an instruction (R75, R76). -/
def Instr.parts : Instr → Mnemonic × Mode × List Byte
  | .ldaImm v => (.lda, .immediate, [v])
  | .ldaZp b => (.lda, .zeroPage, [b])
  | .ldaZpX b => (.lda, .zeroPageX, [b])
  | .ldaAbs a => (.lda, .absolute, [lo a, hi a])
  | .ldaAbsX a => (.lda, .absoluteX, [lo a, hi a])
  | .ldaAbsY a => (.lda, .absoluteY, [lo a, hi a])
  | .ldaIndX b => (.lda, .indexedIndirect, [b])
  | .ldaIndY b => (.lda, .indirectIndexed, [b])
  | .ldxImm v => (.ldx, .immediate, [v])
  | .ldxZp b => (.ldx, .zeroPage, [b])
  | .ldxZpY b => (.ldx, .zeroPageY, [b])
  | .ldxAbs a => (.ldx, .absolute, [lo a, hi a])
  | .ldxAbsY a => (.ldx, .absoluteY, [lo a, hi a])
  | .ldyImm v => (.ldy, .immediate, [v])
  | .ldyZp b => (.ldy, .zeroPage, [b])
  | .ldyZpX b => (.ldy, .zeroPageX, [b])
  | .ldyAbs a => (.ldy, .absolute, [lo a, hi a])
  | .ldyAbsX a => (.ldy, .absoluteX, [lo a, hi a])
  | .tax => (.tax, .implied, [])
  | .tay => (.tay, .implied, [])
  | .txa => (.txa, .implied, [])
  | .tya => (.tya, .implied, [])
  | .tsx => (.tsx, .implied, [])
  | .txs => (.txs, .implied, [])
  | .staZp b => (.sta, .zeroPage, [b])
  | .staZpX b => (.sta, .zeroPageX, [b])
  | .staAbs a => (.sta, .absolute, [lo a, hi a])
  | .staAbsX a => (.sta, .absoluteX, [lo a, hi a])
  | .staAbsY a => (.sta, .absoluteY, [lo a, hi a])
  | .staIndX b => (.sta, .indexedIndirect, [b])
  | .staIndY b => (.sta, .indirectIndexed, [b])
  | .stxZp b => (.stx, .zeroPage, [b])
  | .stxZpY b => (.stx, .zeroPageY, [b])
  | .stxAbs a => (.stx, .absolute, [lo a, hi a])
  | .styZp b => (.sty, .zeroPage, [b])
  | .styZpX b => (.sty, .zeroPageX, [b])
  | .styAbs a => (.sty, .absolute, [lo a, hi a])
  | .pha => (.pha, .implied, [])
  | .php => (.php, .implied, [])
  | .pla => (.pla, .implied, [])
  | .plp => (.plp, .implied, [])
  | .andImm v => (.and, .immediate, [v])
  | .andZp b => (.and, .zeroPage, [b])
  | .andZpX b => (.and, .zeroPageX, [b])
  | .andAbs a => (.and, .absolute, [lo a, hi a])
  | .andAbsX a => (.and, .absoluteX, [lo a, hi a])
  | .andAbsY a => (.and, .absoluteY, [lo a, hi a])
  | .andIndX b => (.and, .indexedIndirect, [b])
  | .andIndY b => (.and, .indirectIndexed, [b])
  | .eorImm v => (.eor, .immediate, [v])
  | .eorZp b => (.eor, .zeroPage, [b])
  | .eorZpX b => (.eor, .zeroPageX, [b])
  | .eorAbs a => (.eor, .absolute, [lo a, hi a])
  | .eorAbsX a => (.eor, .absoluteX, [lo a, hi a])
  | .eorAbsY a => (.eor, .absoluteY, [lo a, hi a])
  | .eorIndX b => (.eor, .indexedIndirect, [b])
  | .eorIndY b => (.eor, .indirectIndexed, [b])
  | .oraImm v => (.ora, .immediate, [v])
  | .oraZp b => (.ora, .zeroPage, [b])
  | .oraZpX b => (.ora, .zeroPageX, [b])
  | .oraAbs a => (.ora, .absolute, [lo a, hi a])
  | .oraAbsX a => (.ora, .absoluteX, [lo a, hi a])
  | .oraAbsY a => (.ora, .absoluteY, [lo a, hi a])
  | .oraIndX b => (.ora, .indexedIndirect, [b])
  | .oraIndY b => (.ora, .indirectIndexed, [b])
  | .bitZp b => (.bit, .zeroPage, [b])
  | .bitAbs a => (.bit, .absolute, [lo a, hi a])
  | .adcImm v => (.adc, .immediate, [v])
  | .adcZp b => (.adc, .zeroPage, [b])
  | .adcZpX b => (.adc, .zeroPageX, [b])
  | .adcAbs a => (.adc, .absolute, [lo a, hi a])
  | .adcAbsX a => (.adc, .absoluteX, [lo a, hi a])
  | .adcAbsY a => (.adc, .absoluteY, [lo a, hi a])
  | .adcIndX b => (.adc, .indexedIndirect, [b])
  | .adcIndY b => (.adc, .indirectIndexed, [b])
  | .sbcImm v => (.sbc, .immediate, [v])
  | .sbcZp b => (.sbc, .zeroPage, [b])
  | .sbcZpX b => (.sbc, .zeroPageX, [b])
  | .sbcAbs a => (.sbc, .absolute, [lo a, hi a])
  | .sbcAbsX a => (.sbc, .absoluteX, [lo a, hi a])
  | .sbcAbsY a => (.sbc, .absoluteY, [lo a, hi a])
  | .sbcIndX b => (.sbc, .indexedIndirect, [b])
  | .sbcIndY b => (.sbc, .indirectIndexed, [b])
  | .cmpImm v => (.cmp, .immediate, [v])
  | .cmpZp b => (.cmp, .zeroPage, [b])
  | .cmpZpX b => (.cmp, .zeroPageX, [b])
  | .cmpAbs a => (.cmp, .absolute, [lo a, hi a])
  | .cmpAbsX a => (.cmp, .absoluteX, [lo a, hi a])
  | .cmpAbsY a => (.cmp, .absoluteY, [lo a, hi a])
  | .cmpIndX b => (.cmp, .indexedIndirect, [b])
  | .cmpIndY b => (.cmp, .indirectIndexed, [b])
  | .cpxImm v => (.cpx, .immediate, [v])
  | .cpxZp b => (.cpx, .zeroPage, [b])
  | .cpxAbs a => (.cpx, .absolute, [lo a, hi a])
  | .cpyImm v => (.cpy, .immediate, [v])
  | .cpyZp b => (.cpy, .zeroPage, [b])
  | .cpyAbs a => (.cpy, .absolute, [lo a, hi a])
  | .incZp b => (.inc, .zeroPage, [b])
  | .incZpX b => (.inc, .zeroPageX, [b])
  | .incAbs a => (.inc, .absolute, [lo a, hi a])
  | .incAbsX a => (.inc, .absoluteX, [lo a, hi a])
  | .inx => (.inx, .implied, [])
  | .iny => (.iny, .implied, [])
  | .decZp b => (.dec, .zeroPage, [b])
  | .decZpX b => (.dec, .zeroPageX, [b])
  | .decAbs a => (.dec, .absolute, [lo a, hi a])
  | .decAbsX a => (.dec, .absoluteX, [lo a, hi a])
  | .dex => (.dex, .implied, [])
  | .dey => (.dey, .implied, [])
  | .aslAcc => (.asl, .accumulator, [])
  | .aslZp b => (.asl, .zeroPage, [b])
  | .aslZpX b => (.asl, .zeroPageX, [b])
  | .aslAbs a => (.asl, .absolute, [lo a, hi a])
  | .aslAbsX a => (.asl, .absoluteX, [lo a, hi a])
  | .lsrAcc => (.lsr, .accumulator, [])
  | .lsrZp b => (.lsr, .zeroPage, [b])
  | .lsrZpX b => (.lsr, .zeroPageX, [b])
  | .lsrAbs a => (.lsr, .absolute, [lo a, hi a])
  | .lsrAbsX a => (.lsr, .absoluteX, [lo a, hi a])
  | .rolAcc => (.rol, .accumulator, [])
  | .rolZp b => (.rol, .zeroPage, [b])
  | .rolZpX b => (.rol, .zeroPageX, [b])
  | .rolAbs a => (.rol, .absolute, [lo a, hi a])
  | .rolAbsX a => (.rol, .absoluteX, [lo a, hi a])
  | .rorAcc => (.ror, .accumulator, [])
  | .rorZp b => (.ror, .zeroPage, [b])
  | .rorZpX b => (.ror, .zeroPageX, [b])
  | .rorAbs a => (.ror, .absolute, [lo a, hi a])
  | .rorAbsX a => (.ror, .absoluteX, [lo a, hi a])
  | .bcc off => (.bcc, .relative, [off])
  | .bcs off => (.bcs, .relative, [off])
  | .beq off => (.beq, .relative, [off])
  | .bmi off => (.bmi, .relative, [off])
  | .bne off => (.bne, .relative, [off])
  | .bpl off => (.bpl, .relative, [off])
  | .bvc off => (.bvc, .relative, [off])
  | .bvs off => (.bvs, .relative, [off])
  | .jmpAbs a => (.jmp, .absolute, [lo a, hi a])
  | .jmpInd a => (.jmp, .indirect, [lo a, hi a])
  | .jsr a => (.jsr, .absolute, [lo a, hi a])
  | .rts => (.rts, .implied, [])
  | .clc => (.clc, .implied, [])
  | .cld => (.cld, .implied, [])
  | .cli => (.cli, .implied, [])
  | .clv => (.clv, .implied, [])
  | .sec => (.sec, .implied, [])
  | .sed => (.sed, .implied, [])
  | .sei => (.sei, .implied, [])
  | .brk => (.brk, .implied, [])
  | .rti => (.rti, .implied, [])
  | .res => (.res, .implied, [])
  | .nop => (.nop, .implied, [])

/-- The instruction's mnemonic. -/
def Instr.mnemonic (i : Instr) : Mnemonic := i.parts.1

/-- The instruction's mode. -/
def Instr.mode (i : Instr) : Mode := i.parts.2.1

/-- The instruction's operand bytes, in memory order. -/
def Instr.operandBytes (i : Instr) : List Byte := i.parts.2.2

/-- How many operand bytes a mode takes from the instruction stream (R75). -/
def Mode.operandCount : Mode → Nat
  | .implied | .accumulator => 0
  | .immediate | .zeroPage | .zeroPageX | .zeroPageY | .indexedIndirect | .indirectIndexed | .relative => 1
  | .absolute | .absoluteX | .absoluteY | .indirect => 2

/-- The instruction of a (mnemonic, mode) pair with first operand byte `b` and second `h`, where the mode has them.
`none` for a pair that no rule of files 41 to 49 defines (R79). -/
def Instr.ofParts (mn : Mnemonic) (mode : Mode) (b h : Byte) : Option Instr :=
  match mn with
  | .lda =>
    match mode with
    | .immediate => some (.ldaImm b)
    | .zeroPage => some (.ldaZp b)
    | .zeroPageX => some (.ldaZpX b)
    | .absolute => some (.ldaAbs (word b h))
    | .absoluteX => some (.ldaAbsX (word b h))
    | .absoluteY => some (.ldaAbsY (word b h))
    | .indexedIndirect => some (.ldaIndX b)
    | .indirectIndexed => some (.ldaIndY b)
    | _ => none
  | .ldx =>
    match mode with
    | .immediate => some (.ldxImm b)
    | .zeroPage => some (.ldxZp b)
    | .zeroPageY => some (.ldxZpY b)
    | .absolute => some (.ldxAbs (word b h))
    | .absoluteY => some (.ldxAbsY (word b h))
    | _ => none
  | .ldy =>
    match mode with
    | .immediate => some (.ldyImm b)
    | .zeroPage => some (.ldyZp b)
    | .zeroPageX => some (.ldyZpX b)
    | .absolute => some (.ldyAbs (word b h))
    | .absoluteX => some (.ldyAbsX (word b h))
    | _ => none
  | .tax =>
    match mode with
    | .implied => some .tax
    | _ => none
  | .tay =>
    match mode with
    | .implied => some .tay
    | _ => none
  | .txa =>
    match mode with
    | .implied => some .txa
    | _ => none
  | .tya =>
    match mode with
    | .implied => some .tya
    | _ => none
  | .tsx =>
    match mode with
    | .implied => some .tsx
    | _ => none
  | .txs =>
    match mode with
    | .implied => some .txs
    | _ => none
  | .sta =>
    match mode with
    | .zeroPage => some (.staZp b)
    | .zeroPageX => some (.staZpX b)
    | .absolute => some (.staAbs (word b h))
    | .absoluteX => some (.staAbsX (word b h))
    | .absoluteY => some (.staAbsY (word b h))
    | .indexedIndirect => some (.staIndX b)
    | .indirectIndexed => some (.staIndY b)
    | _ => none
  | .stx =>
    match mode with
    | .zeroPage => some (.stxZp b)
    | .zeroPageY => some (.stxZpY b)
    | .absolute => some (.stxAbs (word b h))
    | _ => none
  | .sty =>
    match mode with
    | .zeroPage => some (.styZp b)
    | .zeroPageX => some (.styZpX b)
    | .absolute => some (.styAbs (word b h))
    | _ => none
  | .pha =>
    match mode with
    | .implied => some .pha
    | _ => none
  | .php =>
    match mode with
    | .implied => some .php
    | _ => none
  | .pla =>
    match mode with
    | .implied => some .pla
    | _ => none
  | .plp =>
    match mode with
    | .implied => some .plp
    | _ => none
  | .and =>
    match mode with
    | .immediate => some (.andImm b)
    | .zeroPage => some (.andZp b)
    | .zeroPageX => some (.andZpX b)
    | .absolute => some (.andAbs (word b h))
    | .absoluteX => some (.andAbsX (word b h))
    | .absoluteY => some (.andAbsY (word b h))
    | .indexedIndirect => some (.andIndX b)
    | .indirectIndexed => some (.andIndY b)
    | _ => none
  | .eor =>
    match mode with
    | .immediate => some (.eorImm b)
    | .zeroPage => some (.eorZp b)
    | .zeroPageX => some (.eorZpX b)
    | .absolute => some (.eorAbs (word b h))
    | .absoluteX => some (.eorAbsX (word b h))
    | .absoluteY => some (.eorAbsY (word b h))
    | .indexedIndirect => some (.eorIndX b)
    | .indirectIndexed => some (.eorIndY b)
    | _ => none
  | .ora =>
    match mode with
    | .immediate => some (.oraImm b)
    | .zeroPage => some (.oraZp b)
    | .zeroPageX => some (.oraZpX b)
    | .absolute => some (.oraAbs (word b h))
    | .absoluteX => some (.oraAbsX (word b h))
    | .absoluteY => some (.oraAbsY (word b h))
    | .indexedIndirect => some (.oraIndX b)
    | .indirectIndexed => some (.oraIndY b)
    | _ => none
  | .bit =>
    match mode with
    | .zeroPage => some (.bitZp b)
    | .absolute => some (.bitAbs (word b h))
    | _ => none
  | .adc =>
    match mode with
    | .immediate => some (.adcImm b)
    | .zeroPage => some (.adcZp b)
    | .zeroPageX => some (.adcZpX b)
    | .absolute => some (.adcAbs (word b h))
    | .absoluteX => some (.adcAbsX (word b h))
    | .absoluteY => some (.adcAbsY (word b h))
    | .indexedIndirect => some (.adcIndX b)
    | .indirectIndexed => some (.adcIndY b)
    | _ => none
  | .sbc =>
    match mode with
    | .immediate => some (.sbcImm b)
    | .zeroPage => some (.sbcZp b)
    | .zeroPageX => some (.sbcZpX b)
    | .absolute => some (.sbcAbs (word b h))
    | .absoluteX => some (.sbcAbsX (word b h))
    | .absoluteY => some (.sbcAbsY (word b h))
    | .indexedIndirect => some (.sbcIndX b)
    | .indirectIndexed => some (.sbcIndY b)
    | _ => none
  | .cmp =>
    match mode with
    | .immediate => some (.cmpImm b)
    | .zeroPage => some (.cmpZp b)
    | .zeroPageX => some (.cmpZpX b)
    | .absolute => some (.cmpAbs (word b h))
    | .absoluteX => some (.cmpAbsX (word b h))
    | .absoluteY => some (.cmpAbsY (word b h))
    | .indexedIndirect => some (.cmpIndX b)
    | .indirectIndexed => some (.cmpIndY b)
    | _ => none
  | .cpx =>
    match mode with
    | .immediate => some (.cpxImm b)
    | .zeroPage => some (.cpxZp b)
    | .absolute => some (.cpxAbs (word b h))
    | _ => none
  | .cpy =>
    match mode with
    | .immediate => some (.cpyImm b)
    | .zeroPage => some (.cpyZp b)
    | .absolute => some (.cpyAbs (word b h))
    | _ => none
  | .inc =>
    match mode with
    | .zeroPage => some (.incZp b)
    | .zeroPageX => some (.incZpX b)
    | .absolute => some (.incAbs (word b h))
    | .absoluteX => some (.incAbsX (word b h))
    | _ => none
  | .inx =>
    match mode with
    | .implied => some .inx
    | _ => none
  | .iny =>
    match mode with
    | .implied => some .iny
    | _ => none
  | .dec =>
    match mode with
    | .zeroPage => some (.decZp b)
    | .zeroPageX => some (.decZpX b)
    | .absolute => some (.decAbs (word b h))
    | .absoluteX => some (.decAbsX (word b h))
    | _ => none
  | .dex =>
    match mode with
    | .implied => some .dex
    | _ => none
  | .dey =>
    match mode with
    | .implied => some .dey
    | _ => none
  | .asl =>
    match mode with
    | .accumulator => some .aslAcc
    | .zeroPage => some (.aslZp b)
    | .zeroPageX => some (.aslZpX b)
    | .absolute => some (.aslAbs (word b h))
    | .absoluteX => some (.aslAbsX (word b h))
    | _ => none
  | .lsr =>
    match mode with
    | .accumulator => some .lsrAcc
    | .zeroPage => some (.lsrZp b)
    | .zeroPageX => some (.lsrZpX b)
    | .absolute => some (.lsrAbs (word b h))
    | .absoluteX => some (.lsrAbsX (word b h))
    | _ => none
  | .rol =>
    match mode with
    | .accumulator => some .rolAcc
    | .zeroPage => some (.rolZp b)
    | .zeroPageX => some (.rolZpX b)
    | .absolute => some (.rolAbs (word b h))
    | .absoluteX => some (.rolAbsX (word b h))
    | _ => none
  | .ror =>
    match mode with
    | .accumulator => some .rorAcc
    | .zeroPage => some (.rorZp b)
    | .zeroPageX => some (.rorZpX b)
    | .absolute => some (.rorAbs (word b h))
    | .absoluteX => some (.rorAbsX (word b h))
    | _ => none
  | .bcc =>
    match mode with
    | .relative => some (.bcc b)
    | _ => none
  | .bcs =>
    match mode with
    | .relative => some (.bcs b)
    | _ => none
  | .beq =>
    match mode with
    | .relative => some (.beq b)
    | _ => none
  | .bmi =>
    match mode with
    | .relative => some (.bmi b)
    | _ => none
  | .bne =>
    match mode with
    | .relative => some (.bne b)
    | _ => none
  | .bpl =>
    match mode with
    | .relative => some (.bpl b)
    | _ => none
  | .bvc =>
    match mode with
    | .relative => some (.bvc b)
    | _ => none
  | .bvs =>
    match mode with
    | .relative => some (.bvs b)
    | _ => none
  | .jmp =>
    match mode with
    | .absolute => some (.jmpAbs (word b h))
    | .indirect => some (.jmpInd (word b h))
    | _ => none
  | .jsr =>
    match mode with
    | .absolute => some (.jsr (word b h))
    | _ => none
  | .rts =>
    match mode with
    | .implied => some .rts
    | _ => none
  | .clc =>
    match mode with
    | .implied => some .clc
    | _ => none
  | .cld =>
    match mode with
    | .implied => some .cld
    | _ => none
  | .cli =>
    match mode with
    | .implied => some .cli
    | _ => none
  | .clv =>
    match mode with
    | .implied => some .clv
    | _ => none
  | .sec =>
    match mode with
    | .implied => some .sec
    | _ => none
  | .sed =>
    match mode with
    | .implied => some .sed
    | _ => none
  | .sei =>
    match mode with
    | .implied => some .sei
    | _ => none
  | .brk =>
    match mode with
    | .implied => some .brk
    | _ => none
  | .rti =>
    match mode with
    | .implied => some .rti
    | _ => none
  | .res =>
    match mode with
    | .implied => some .res
    | _ => none
  | .nop =>
    match mode with
    | .implied => some .nop
    | _ => none

theorem Instr.ofParts_isSome {mn : Mnemonic} {mode : Mode} (h : legalPair mn mode = true) (b c : Byte) :
    (Instr.ofParts mn mode b c).isSome = true := by
  cases mn <;> cases mode <;> first | rfl | cases h

/-- The instruction of a record of the opcode table, its operand bytes read. -/
def OpRow.instr (r : OpRow) (b h : Byte) : Instr :=
  (Instr.ofParts r.mnemonic r.mode b h).get (Instr.ofParts_isSome r.legal b h)

/-! ## The default opcode map (R80), a list a row of the table, and the default configuration (00_scope.md R14) -/

/-- R80, row 0. -/
def dispatchRow0 : List OpRow := [
  ⟨0x00, .brk, .implied, rfl⟩,
  ⟨0x01, .ora, .indexedIndirect, rfl⟩,
  ⟨0x05, .ora, .zeroPage, rfl⟩,
  ⟨0x06, .asl, .zeroPage, rfl⟩,
  ⟨0x08, .php, .implied, rfl⟩,
  ⟨0x09, .ora, .immediate, rfl⟩,
  ⟨0x0A, .asl, .accumulator, rfl⟩,
  ⟨0x0D, .ora, .absolute, rfl⟩,
  ⟨0x0E, .asl, .absolute, rfl⟩]

/-- R80, row 1. -/
def dispatchRow1 : List OpRow := [
  ⟨0x10, .bpl, .relative, rfl⟩,
  ⟨0x11, .ora, .indirectIndexed, rfl⟩,
  ⟨0x15, .ora, .zeroPageX, rfl⟩,
  ⟨0x16, .asl, .zeroPageX, rfl⟩,
  ⟨0x18, .clc, .implied, rfl⟩,
  ⟨0x19, .ora, .absoluteY, rfl⟩,
  ⟨0x1D, .ora, .absoluteX, rfl⟩,
  ⟨0x1E, .asl, .absoluteX, rfl⟩]

/-- R80, row 2. -/
def dispatchRow2 : List OpRow := [
  ⟨0x20, .jsr, .absolute, rfl⟩,
  ⟨0x21, .and, .indexedIndirect, rfl⟩,
  ⟨0x24, .bit, .zeroPage, rfl⟩,
  ⟨0x25, .and, .zeroPage, rfl⟩,
  ⟨0x26, .rol, .zeroPage, rfl⟩,
  ⟨0x28, .plp, .implied, rfl⟩,
  ⟨0x29, .and, .immediate, rfl⟩,
  ⟨0x2A, .rol, .accumulator, rfl⟩,
  ⟨0x2C, .bit, .absolute, rfl⟩,
  ⟨0x2D, .and, .absolute, rfl⟩,
  ⟨0x2E, .rol, .absolute, rfl⟩]

/-- R80, row 3. -/
def dispatchRow3 : List OpRow := [
  ⟨0x30, .bmi, .relative, rfl⟩,
  ⟨0x31, .and, .indirectIndexed, rfl⟩,
  ⟨0x35, .and, .zeroPageX, rfl⟩,
  ⟨0x36, .rol, .zeroPageX, rfl⟩,
  ⟨0x38, .sec, .implied, rfl⟩,
  ⟨0x39, .and, .absoluteY, rfl⟩,
  ⟨0x3D, .and, .absoluteX, rfl⟩,
  ⟨0x3E, .rol, .absoluteX, rfl⟩]

/-- R80, row 4. -/
def dispatchRow4 : List OpRow := [
  ⟨0x40, .rti, .implied, rfl⟩,
  ⟨0x41, .eor, .indexedIndirect, rfl⟩,
  ⟨0x45, .eor, .zeroPage, rfl⟩,
  ⟨0x46, .lsr, .zeroPage, rfl⟩,
  ⟨0x48, .pha, .implied, rfl⟩,
  ⟨0x49, .eor, .immediate, rfl⟩,
  ⟨0x4A, .lsr, .accumulator, rfl⟩,
  ⟨0x4C, .jmp, .absolute, rfl⟩,
  ⟨0x4D, .eor, .absolute, rfl⟩,
  ⟨0x4E, .lsr, .absolute, rfl⟩]

/-- R80, row 5. -/
def dispatchRow5 : List OpRow := [
  ⟨0x50, .bvc, .relative, rfl⟩,
  ⟨0x51, .eor, .indirectIndexed, rfl⟩,
  ⟨0x55, .eor, .zeroPageX, rfl⟩,
  ⟨0x56, .lsr, .zeroPageX, rfl⟩,
  ⟨0x58, .cli, .implied, rfl⟩,
  ⟨0x59, .eor, .absoluteY, rfl⟩,
  ⟨0x5D, .eor, .absoluteX, rfl⟩,
  ⟨0x5E, .lsr, .absoluteX, rfl⟩]

/-- R80, row 6. -/
def dispatchRow6 : List OpRow := [
  ⟨0x60, .rts, .implied, rfl⟩,
  ⟨0x61, .adc, .indexedIndirect, rfl⟩,
  ⟨0x65, .adc, .zeroPage, rfl⟩,
  ⟨0x66, .ror, .zeroPage, rfl⟩,
  ⟨0x68, .pla, .implied, rfl⟩,
  ⟨0x69, .adc, .immediate, rfl⟩,
  ⟨0x6A, .ror, .accumulator, rfl⟩,
  ⟨0x6C, .jmp, .indirect, rfl⟩,
  ⟨0x6D, .adc, .absolute, rfl⟩,
  ⟨0x6E, .ror, .absolute, rfl⟩]

/-- R80, row 7. -/
def dispatchRow7 : List OpRow := [
  ⟨0x70, .bvs, .relative, rfl⟩,
  ⟨0x71, .adc, .indirectIndexed, rfl⟩,
  ⟨0x75, .adc, .zeroPageX, rfl⟩,
  ⟨0x76, .ror, .zeroPageX, rfl⟩,
  ⟨0x78, .sei, .implied, rfl⟩,
  ⟨0x79, .adc, .absoluteY, rfl⟩,
  ⟨0x7D, .adc, .absoluteX, rfl⟩,
  ⟨0x7E, .ror, .absoluteX, rfl⟩]

/-- R80, row 8. -/
def dispatchRow8 : List OpRow := [
  ⟨0x81, .sta, .indexedIndirect, rfl⟩,
  ⟨0x84, .sty, .zeroPage, rfl⟩,
  ⟨0x85, .sta, .zeroPage, rfl⟩,
  ⟨0x86, .stx, .zeroPage, rfl⟩,
  ⟨0x88, .dey, .implied, rfl⟩,
  ⟨0x8A, .txa, .implied, rfl⟩,
  ⟨0x8C, .sty, .absolute, rfl⟩,
  ⟨0x8D, .sta, .absolute, rfl⟩,
  ⟨0x8E, .stx, .absolute, rfl⟩]

/-- R80, row 9. -/
def dispatchRow9 : List OpRow := [
  ⟨0x90, .bcc, .relative, rfl⟩,
  ⟨0x91, .sta, .indirectIndexed, rfl⟩,
  ⟨0x94, .sty, .zeroPageX, rfl⟩,
  ⟨0x95, .sta, .zeroPageX, rfl⟩,
  ⟨0x96, .stx, .zeroPageY, rfl⟩,
  ⟨0x98, .tya, .implied, rfl⟩,
  ⟨0x99, .sta, .absoluteY, rfl⟩,
  ⟨0x9A, .txs, .implied, rfl⟩,
  ⟨0x9D, .sta, .absoluteX, rfl⟩]

/-- R80, row A. -/
def dispatchRowA : List OpRow := [
  ⟨0xA0, .ldy, .immediate, rfl⟩,
  ⟨0xA1, .lda, .indexedIndirect, rfl⟩,
  ⟨0xA2, .ldx, .immediate, rfl⟩,
  ⟨0xA4, .ldy, .zeroPage, rfl⟩,
  ⟨0xA5, .lda, .zeroPage, rfl⟩,
  ⟨0xA6, .ldx, .zeroPage, rfl⟩,
  ⟨0xA8, .tay, .implied, rfl⟩,
  ⟨0xA9, .lda, .immediate, rfl⟩,
  ⟨0xAA, .tax, .implied, rfl⟩,
  ⟨0xAC, .ldy, .absolute, rfl⟩,
  ⟨0xAD, .lda, .absolute, rfl⟩,
  ⟨0xAE, .ldx, .absolute, rfl⟩]

/-- R80, row B. -/
def dispatchRowB : List OpRow := [
  ⟨0xB0, .bcs, .relative, rfl⟩,
  ⟨0xB1, .lda, .indirectIndexed, rfl⟩,
  ⟨0xB4, .ldy, .zeroPageX, rfl⟩,
  ⟨0xB5, .lda, .zeroPageX, rfl⟩,
  ⟨0xB6, .ldx, .zeroPageY, rfl⟩,
  ⟨0xB8, .clv, .implied, rfl⟩,
  ⟨0xB9, .lda, .absoluteY, rfl⟩,
  ⟨0xBA, .tsx, .implied, rfl⟩,
  ⟨0xBC, .ldy, .absoluteX, rfl⟩,
  ⟨0xBD, .lda, .absoluteX, rfl⟩,
  ⟨0xBE, .ldx, .absoluteY, rfl⟩]

/-- R80, row C. -/
def dispatchRowC : List OpRow := [
  ⟨0xC0, .cpy, .immediate, rfl⟩,
  ⟨0xC1, .cmp, .indexedIndirect, rfl⟩,
  ⟨0xC4, .cpy, .zeroPage, rfl⟩,
  ⟨0xC5, .cmp, .zeroPage, rfl⟩,
  ⟨0xC6, .dec, .zeroPage, rfl⟩,
  ⟨0xC8, .iny, .implied, rfl⟩,
  ⟨0xC9, .cmp, .immediate, rfl⟩,
  ⟨0xCA, .dex, .implied, rfl⟩,
  ⟨0xCC, .cpy, .absolute, rfl⟩,
  ⟨0xCD, .cmp, .absolute, rfl⟩,
  ⟨0xCE, .dec, .absolute, rfl⟩]

/-- R80, row D. -/
def dispatchRowD : List OpRow := [
  ⟨0xD0, .bne, .relative, rfl⟩,
  ⟨0xD1, .cmp, .indirectIndexed, rfl⟩,
  ⟨0xD5, .cmp, .zeroPageX, rfl⟩,
  ⟨0xD6, .dec, .zeroPageX, rfl⟩,
  ⟨0xD8, .cld, .implied, rfl⟩,
  ⟨0xD9, .cmp, .absoluteY, rfl⟩,
  ⟨0xDD, .cmp, .absoluteX, rfl⟩,
  ⟨0xDE, .dec, .absoluteX, rfl⟩]

/-- R80, row E. -/
def dispatchRowE : List OpRow := [
  ⟨0xE0, .cpx, .immediate, rfl⟩,
  ⟨0xE1, .sbc, .indexedIndirect, rfl⟩,
  ⟨0xE4, .cpx, .zeroPage, rfl⟩,
  ⟨0xE5, .sbc, .zeroPage, rfl⟩,
  ⟨0xE6, .inc, .zeroPage, rfl⟩,
  ⟨0xE8, .inx, .implied, rfl⟩,
  ⟨0xE9, .sbc, .immediate, rfl⟩,
  ⟨0xEA, .nop, .implied, rfl⟩,
  ⟨0xEC, .cpx, .absolute, rfl⟩,
  ⟨0xED, .sbc, .absolute, rfl⟩,
  ⟨0xEE, .inc, .absolute, rfl⟩]

/-- R80, row F. -/
def dispatchRowF : List OpRow := [
  ⟨0xF0, .beq, .relative, rfl⟩,
  ⟨0xF1, .sbc, .indirectIndexed, rfl⟩,
  ⟨0xF5, .sbc, .zeroPageX, rfl⟩,
  ⟨0xF6, .inc, .zeroPageX, rfl⟩,
  ⟨0xF8, .sed, .implied, rfl⟩,
  ⟨0xF9, .sbc, .absoluteY, rfl⟩,
  ⟨0xFD, .sbc, .absoluteX, rfl⟩,
  ⟨0xFE, .inc, .absoluteX, rfl⟩]

/-- The default DISPATCH: 151 entries, every other byte empty (R80; spec's own choice D1). -/
def defaultDispatch : List OpRow :=
  dispatchRow0 ++ dispatchRow1 ++ dispatchRow2 ++ dispatchRow3 ++ dispatchRow4 ++ dispatchRow5 ++
  dispatchRow6 ++ dispatchRow7 ++ dispatchRow8 ++ dispatchRow9 ++ dispatchRowA ++ dispatchRowB ++
  dispatchRowC ++ dispatchRowD ++ dispatchRowE ++ dispatchRowF

/-- The default of every parameter (00_scope.md R14). -/
def Config.default : Config where
  dispatch       := defaultDispatch
  resOpcode      := none
  resetSp        := 0xFD
  resetCzvn      := ⟨false, false, false, false⟩
  resetB         := true
  jmpIndPageWrap := true
  nopSkipsByte   := false
  brkSignature   := true
  decimalPolicy  := .binary

/-! ## Dispatch -/

/-- The record a list of records gives a byte: the first of that byte, or none (R78). -/
def lookupRow : List OpRow → Byte → Option OpRow
  | [], _ => none
  | r :: rest, op => if r.opcode = op then some r else lookupRow rest op

/-- The byte RES is bound to: RES_OPCODE, where the default DISPATCH leaves it empty (R103). -/
def resByte (cfg : Config) : Option Byte :=
  match cfg.resOpcode with
  | none => none
  | some r => if lookupRow defaultDispatch r = none then some r else none

/-- The DISPATCH entry of a byte (R7, R78, R103). "Otherwise no byte maps to RES": a record that names RES leaves its byte
empty, and RES_OPCODE comes before a supplied record of the same byte (DEDUCED, log entry 8). -/
def rowOf (cfg : Config) (op : Byte) : Option OpRow :=
  if resByte cfg = some op then some ⟨op, .res, .implied, rfl⟩
  else
    match lookupRow cfg.dispatch op with
    | none => none
    | some r => if r.mnemonic = .res then none else some r

/-- `DISPATCH(op)` (R7): the pair of the byte's entry, or empty. -/
def dispatchOf (cfg : Config) (op : Byte) : Option (Mnemonic × Mode) :=
  (rowOf cfg op).map fun r => (r.mnemonic, r.mode)

/-! ## The decoder -/

/-- Why bytes are no instruction. -/
inductive DecodeError where
  /-- There is no opcode byte. -/
  | noByte
  /-- DISPATCH is empty at this opcode (R81). -/
  | unmapped (op : Byte)
  /-- The bytes end before the operand bytes of this pair do. -/
  | truncated (mn : Mnemonic) (mode : Mode)
deriving DecidableEq, Repr

/-- What the decoder answers: an instruction and the bytes after it, or a named rejection. -/
inductive Decoded where
  | instr (i : Instr) (rest : List Byte)
  | rejected (why : DecodeError)
deriving DecidableEq, Repr

/-- Read the operand bytes the record's mode has, low byte first (R75, R76). -/
def decodeOperands (r : OpRow) (bytes : List Byte) : Decoded :=
  match r.mode.operandCount, bytes with
  | 0, rest => .instr (r.instr 0 0) rest
  | 1, b :: rest => .instr (r.instr b 0) rest
  | 2, b :: h :: rest => .instr (r.instr b h) rest
  | _, _ => .rejected (.truncated r.mnemonic r.mode)

/-- Decode one instruction: the opcode byte alone fixes the mnemonic and the mode (R102). -/
def decode (cfg : Config) (bytes : List Byte) : Decoded :=
  match bytes with
  | [] => .rejected .noByte
  | op :: rest =>
    match rowOf cfg op with
    | none => .rejected (.unmapped op)
    | some r => decodeOperands r rest

/-- The number's low `n` bytes, the least significant first. -/
def bytesOfNat : Nat → Nat → List Byte
  | 0, _ => []
  | n + 1, w => BitVec.ofNat 8 w :: bytesOfNat n (w / 256)

/-- The three bytes of an instruction whose first `nbits` bits are `w` and whose other bits are 0, in memory order
(the longest instruction has three bytes, R75). -/
def tableWordBytes (nbits w : Nat) : List Byte := bytesOfNat 3 (w % 2 ^ nbits)

/-- The instruction the decoder reads, under the default configuration, from an instruction whose bits are `w`. -/
def decodeTableWord (nbits w : Nat) : Option Instr :=
  match decode Config.default (tableWordBytes nbits w) with
  | .instr i _ => some i
  | .rejected _ => none

/-! ## The encoder -/

/-- The opcode byte of a pair: the first byte that DISPATCH gives this pair, if there is one. -/
def opcodeOf (cfg : Config) (mn : Mnemonic) (mode : Mode) : Option Byte :=
  match mn, mode with
  | .res, .implied => resByte cfg
  | _, _ =>
    (cfg.dispatch.find? fun r =>
      r.mnemonic == mn && (r.mode == mode && dispatchOf cfg r.opcode == some (mn, mode))).map (·.opcode)

/-- The bytes of an instruction: its opcode byte and its operand bytes (R75); `none` where DISPATCH has no byte for it. -/
def encode (cfg : Config) (i : Instr) : Option (List Byte) :=
  (opcodeOf cfg i.mnemonic i.mode).map (· :: i.operandBytes)

/-- The length in bytes that R75 gives an instruction: the opcode byte, the operand bytes, and the byte that BRK
(under BRK_SIGNATURE, R163) or NOP (under NOP_SKIPS_BYTE, R165) skips. -/
def Instr.length (cfg : Config) (i : Instr) : Nat :=
  1 + i.mode.operandCount +
    (match i.mnemonic with
      | .brk => if cfg.brkSignature then 1 else 0
      | .nop => if cfg.nopSkipsByte then 1 else 0
      | _ => 0)

end Sys2Proof
end

