-- ==== Sys2Proof/Machine/State.lean ====
section
/-! DEFINITION. The state of the core, plain data (10_state.md R28), the reasons a step can stop, and the state after
reset. INVENTORY.md '## State' lists every field with its rule and reset value. -/

namespace Sys2Proof.Machine

/-- Memory as (address, byte) pairs, addresses strictly rising, no entry equal to what an unlisted address reads as
(`Memory.wf` in Ops.lean; what an unlisted address reads as is `Memory.unwritten` there, log entry 1). -/
abbrev Memory := List Host.Cell

/-- Why the machine stops with a fault: the closed list of 00_scope.md R19. -/
inductive Fault where
  /-- Raised by any step while `ready = 0`, before it fetches anything (10_state.md R48). Safe: the document says the
  state before reset is undefined. -/
  | notReset
deriving DecidableEq, Repr

/-- Why a step is refused: 00_scope.md R19's one reason, and the host interface's `notModelled`, which nothing raises. -/
inductive Refusal where
  /-- Raised by `exec` for an instruction without a meaning. No arm of this model raises it. Safe. -/
  | notModelled (mnemonic : String)
  /-- Raised by ADC and SBC with D = 1 under DECIMAL_POLICY = refuse (44_arithmetic.md R127, R128). Safe. -/
  | decimalModeUnmodelled
deriving DecidableEq, Repr

/-- The outcome mark (10_state.md R28, 00_scope.md R18): none, faulted or refused, with the reason. -/
inductive Mark where
  | running
  | faulted (r : Fault)
  | refused (r : Refusal)
deriving DecidableEq, Repr

/-- The seven stored flags (10_state.md R35-R41). The reserved bit of P is not stored (R45). -/
structure Flags where
  c : Bool
  z : Bool
  i : Bool
  d : Bool
  b : Bool
  v : Bool
  n : Bool
deriving DecidableEq, Repr

/-- The core's state (R28). -/
structure State where
  /-- The accumulator A (R29). -/
  a     : Byte
  /-- Index register X (R30). -/
  x     : Byte
  /-- Index register Y (R31). -/
  y     : Byte
  /-- The stack pointer SP (R32). -/
  sp    : Byte
  /-- The program counter PC (R33). -/
  pc    : Word
  /-- C, Z, I, D, B, V, N (R35-R41). -/
  flags : Flags
  /-- The 65,536 cells of M (20_memory.md R51). -/
  mem   : Memory
  /-- The cycle counter, an unbounded natural number (R46). -/
  clock : Nat
  /-- The log of skipped unmapped opcodes: (address, byte), oldest first (R47). -/
  diag  : List (Word × Byte)
  /-- Whether reset has run (R48). -/
  ready : Bool
  /-- The outcome mark (R28). -/
  mark  : Mark
  /-- The configuration (the model's own field, log entry 2): no step writes it. -/
  cfg   : Config
deriving DecidableEq, Repr

/-- A core just constructed (R50): clock 0, no log, not ready. Its registers and flags hold no defined value, so they
are arguments here; memory holds what the host has written (log entry 4). -/
def State.constructed (cfg : Config) (a x y sp : Byte) (pc : Word) (flags : Flags) (mem : Memory) : State where
  a := a
  x := x
  y := y
  sp := sp
  pc := pc
  flags := flags
  mem := mem
  clock := 0
  diag := []
  ready := false
  mark := .running
  cfg := cfg

/-- The state right after the first reset (70_reset_and_hazards.md R182, R183, R185) of a core with the default
configuration and nothing listed in memory. PC is the word of two unlisted cells (DESIGN CHOICE, log entries 1 and 3).
`reset_eq_resetSequence` in Laws/Ops.lean: this is what the reset sequence makes of any such core. -/
def State.reset : State where
  a := 0x00
  x := 0x00
  y := 0x00
  sp := Config.default.resetSp
  pc := 0x0000
  flags :=
    { c := Config.default.resetCzvn.c, z := Config.default.resetCzvn.z, i := false, d := false,
      b := Config.default.resetB, v := Config.default.resetCzvn.v, n := Config.default.resetCzvn.n }
  mem := []
  clock := 7
  diag := []
  ready := true
  mark := .running
  cfg := Config.default

end Sys2Proof.Machine
end

