-- ==== Sys2Proof/Machine/Flags.lean ====
section
/-! DEFINITION. The ALU (00_scope.md R9): pure functions of bytes and flags. They read no memory and tick no clock. -/

namespace Sys2Proof.Machine

/-- `SetZN(v)`: Z <- (v = 0), N <- v[7]; nothing else (10_state.md R42). -/
def setZN (v : Byte) (f : Flags) : Flags :=
  { f with z := v == 0, n := v.getLsbD 7 }

/-- A flag as bit `k` of a byte. -/
def flagBit (b : Bool) (k : Nat) : Byte := (BitVec.ofBool b).setWidth 8 <<< k

/-- `Pack()`: N7 V6 1 B4 D3 I2 Z1 C0 (10_state.md R43, R45; the layout is the spec's choice D3). -/
def pack (f : Flags) : Byte :=
  flagBit f.n 7 ||| flagBit f.v 6 ||| flagBit true 5 ||| flagBit f.b 4 |||
    flagBit f.d 3 ||| flagBit f.i 2 ||| flagBit f.z 1 ||| flagBit f.c 0

/-- `Unpack(p)`: C, Z, I, D, V, N from bits 0, 1, 2, 3, 6, 7; B keeps its value, bit 5 is discarded (10_state.md R44). -/
def unpack (p : Byte) (f : Flags) : Flags where
  c := p.getLsbD 0
  z := p.getLsbD 1
  i := p.getLsbD 2
  d := p.getLsbD 3
  b := f.b
  v := p.getLsbD 6
  n := p.getLsbD 7

/-- What the adder returns: the 8-bit result, the carry out and the signed overflow (44_arithmetic.md R126). -/
structure AddResult where
  r    : Byte
  cout : Bool
  ovf  : Bool
deriving DecidableEq, Repr

/-- `Add8(a, b, cin)` (44_arithmetic.md R126; the overflow is the corrected formula of 90_conflicts.md C1). -/
def add8 (a b : Byte) (cin : Bool) : AddResult :=
  let sum := a.toNat + b.toNat + cin.toNat
  let r : Byte := BitVec.ofNat 8 sum
  { r := r
    cout := decide (255 < sum)
    ovf := (a.getLsbD 7 == b.getLsbD 7) && (r.getLsbD 7 != a.getLsbD 7) }

/-- `Compare8(reg, v)`: C, Z and N of the difference, which is not stored; V is unchanged (44_arithmetic.md R129). -/
def compare8 (reg v : Byte) (f : Flags) : Flags :=
  let d := reg - v
  { f with c := decide (v ≤ reg), z := reg == v, n := d.getLsbD 7 }

/-- What a shift returns: the new byte and the carry out (46_shift_rotate.md R139). -/
structure ShiftResult where
  r    : Byte
  cout : Bool
deriving DecidableEq, Repr

/-- ASL's function (R140); the old carry is not used. -/
def aslFn (v : Byte) (_cin : Bool) : ShiftResult := ⟨v <<< 1, v.getLsbD 7⟩

/-- LSR's function (R141); the old carry is not used. -/
def lsrFn (v : Byte) (_cin : Bool) : ShiftResult := ⟨v >>> 1, v.getLsbD 0⟩

/-- ROL's function (R142): `((v << 1) mod 256) | cin`. -/
def rolFn (v : Byte) (cin : Bool) : ShiftResult := ⟨(v <<< 1) ||| flagBit cin 0, v.getLsbD 7⟩

/-- ROR's function (R143): `(v >> 1) | (cin << 7)`. -/
def rorFn (v : Byte) (cin : Bool) : ShiftResult := ⟨(v >>> 1) ||| flagBit cin 7, v.getLsbD 0⟩

end Sys2Proof.Machine
end

