-- ==== Sys2Proof/Machine/Ops.lean ====
section
/-! DEFINITION. The named operations over memory and registers: the memory array, the primitives of 00_scope.md R17,
the stack, the fetch unit, the break trap and its return, and the reset sequence. -/

namespace Sys2Proof.Machine

/-! ## The memory array (20_memory.md R51, R56) -/

/-- What an address that memory does not list reads as. The spec leaves a cell nothing has written unconstrained
(10_state.md R50, 20_memory.md R69); DESIGN CHOICE, unsafe for claims about unlisted cells of one particular state,
log entry 1. Every memory of 65,536 bytes has exactly one listing, so a claim about every state is about every memory. -/
def Memory.unwritten : Byte := 0x00

/-- The byte at an address given as a number. -/
def Memory.readAt : Memory → Nat → Byte
  | [], _ => Memory.unwritten
  | (k, v) :: rest, a => if k = a then v else Memory.readAt rest a

/-- `M[a]`. -/
def Memory.read (m : Memory) (a : Word) : Byte := Memory.readAt m a.toNat

/-- Unlist an address. -/
def Memory.erase : Memory → Nat → Memory
  | [], _ => []
  | (k, v) :: rest, a => if k = a then Memory.erase rest a else (k, v) :: Memory.erase rest a

/-- List an address that is not listed, at its place in the rising order. -/
def Memory.insert : Memory → Nat → Byte → Memory
  | [], a, v => [(a, v)]
  | (k, w) :: rest, a, v => if a < k then (a, v) :: (k, w) :: rest else (k, w) :: Memory.insert rest a v

/-- `M[a] <- v`, keeping the canonical form: a byte equal to what an unlisted address reads as is not listed. -/
def Memory.write (m : Memory) (a : Word) (v : Byte) : Memory :=
  if v = Memory.unwritten then Memory.erase m a.toNat else Memory.insert (Memory.erase m a.toNat) a.toNat v

/-- Store bytes from an address on, wrapping at the top of memory. -/
def Memory.writeBytes : Memory → Word → List Byte → Memory
  | m, _, [] => m
  | m, a, v :: rest => Memory.writeBytes (m.write a v) (a + 1) rest

/-- The canonical form from address `low` on: addresses strictly rising and below 65536, no byte listed that an unlisted
address reads as. -/
def Memory.wfFrom : Nat → Memory → Bool
  | _, [] => true
  | low, (k, v) :: rest =>
    decide (low ≤ k) && decide (k < 65536) && (v != Memory.unwritten) && Memory.wfFrom (k + 1) rest

/-- The canonical form of memory. -/
def Memory.wf (m : Memory) : Bool := Memory.wfFrom 0 m

/-! ## Register writes -/

/-- A <- v. -/
def State.setA (s : State) (v : Byte) : State := { s with a := v }

/-- X <- v. -/
def State.setX (s : State) (v : Byte) : State := { s with x := v }

/-- Y <- v. -/
def State.setY (s : State) (v : Byte) : State := { s with y := v }

/-- SP <- v. -/
def State.setSp (s : State) (v : Byte) : State := { s with sp := v }

/-- PC <- w. -/
def State.setPc (s : State) (w : Word) : State := { s with pc := w }

/-- The seven flags <- f. -/
def State.setFlags (s : State) (f : Flags) : State := { s with flags := f }

/-! ## Clock and memory primitives (20_memory.md R57-R59) -/

/-- `Tick(n)` (R59). -/
def State.tick (s : State) (n : Nat) : State := { s with clock := s.clock + n }

/-- `MemRead(a, 1)`: the byte, and the state one cycle later (R57). -/
def State.memRead (s : State) (a : Word) : Byte × State := (s.mem.read a, s.tick 1)

/-- `MemWrite(a, 1, v)` (R58): no address is write-protected. -/
def State.memWrite (s : State) (a : Word) (v : Byte) : State :=
  { s with mem := s.mem.write a v, clock := s.clock + 1 }

/-! ## The fetch unit (30_encoding.md R77) -/

/-- `FetchByte()`: read the byte at PC, one cycle; PC <- PC + 1 mod 65536. -/
def State.fetchByte (s : State) : Byte × State :=
  let r := s.memRead s.pc
  (r.1, r.2.setPc (r.2.pc + 1))

/-- `FetchByte()` where the value is not needed: the byte is skipped, or it is an operand byte that the decoder has
already put into the instruction (DEDUCED, log entry 6). -/
def State.takeByte (s : State) : State := s.fetchByte.2

/-- Two operand bytes, fetched one after the other. -/
def State.takeWord (s : State) : State := s.takeByte.takeByte

/-- The instruction of the record that DISPATCH gives the fetched opcode byte, with the operand bytes that stand at PC
(DEDUCED, log entry 6). -/
def State.instrAtPc (s : State) (r : OpRow) : Instr := r.instr (s.mem.read s.pc) (s.mem.read (s.pc + 1))

/-- The operand bytes an instruction can have after its opcode byte: the two bytes at PC, as memory holds them now. -/
def State.operandBytesAtPc (s : State) : List Byte := [s.mem.read s.pc, s.mem.read (s.pc + 1)]

/-- What decoding sees when the opcode byte is about to be fetched: the three bytes at PC (30_encoding.md R75). -/
def State.bytesAtPc (s : State) : List Byte := s.mem.read s.pc :: s.takeByte.operandBytesAtPc

/-- An unmapped opcode byte `op`, fetched from `addr`, is skipped and logged (30_encoding.md R81). -/
def State.logUnmapped (s : State) (addr : Word) (op : Byte) : State := { s with diag := s.diag ++ [(addr, op)] }

/-! ## The stack (20_memory.md R64-R67) -/

/-- `0x0100 + SP` (R64). -/
def stackAddr (sp : Byte) : Word := 0x0100 + zext16 sp

/-- `Push(v)`: write the free cell, then SP <- SP - 1 mod 256 (R65, R67). -/
def State.push (s : State) (v : Byte) : State :=
  let s1 := s.memWrite (stackAddr s.sp) v
  s1.setSp (s1.sp - 1)

/-- `Pull()`: SP <- SP + 1 mod 256, then read that cell (R66, R67). -/
def State.pull (s : State) : Byte × State :=
  let s1 := s.setSp (s.sp + 1)
  s1.memRead (stackAddr s1.sp)

/-- Push a word, high byte first (R65). -/
def State.pushWord (s : State) (w : Word) : State := (s.push (hi w)).push (lo w)

/-- Pull a word, low byte first (R66). -/
def State.pullWord (s : State) : Word × State :=
  let l := s.pull
  let h := l.2.pull
  (word l.1 h.1, h.2)

/-! ## Vectors (20_memory.md R62) -/

/-- The reset vector's low byte. -/
def resetVector : Word := 0xFFFC

/-- The IRQ/BRK vector's low byte. -/
def breakVector : Word := 0xFFFE

/-- PC <- the word at a vector, low byte read first. -/
def State.loadVector (s : State) (a : Word) : State :=
  let l := s.memRead a
  let h := l.2.memRead (a + 1)
  h.2.setPc (word l.1 h.1)

/-! ## Trap entry, trap return, reset -/

/-- The break trap's entry (60_exceptions.md R169, 49_flag_interrupt_misc.md R163), from a PC that is already the return
address: push PC, push P with bit 4 set, I <- 1, PC <- the IRQ/BRK vector, B <- 1. -/
def State.enterBreak (s : State) : State :=
  let s1 := s.pushWord s.pc
  let s2 := s1.push (pack s1.flags ||| 0x10)
  let s3 := s2.setFlags { s2.flags with i := true }
  let s4 := s3.loadVector breakVector
  s4.setFlags { s4.flags with b := true }

/-- The trap return (60_exceptions.md R170, 49_flag_interrupt_misc.md R164): pull P (B and bit 5 unaffected), then PC. -/
def State.returnFromBreak (s : State) : State :=
  let p := s.pull
  let s1 := p.2.setFlags (unpack p.1 p.2.flags)
  let w := s1.pullWord
  w.2.setPc w.1

/-- `Reset()` (70_reset_and_hazards.md R182): memory and `diag` are unchanged, `clock` gains 7. "Only `clock`, `diag` and
memory carry over" (R184), so the mark of an earlier fault or refusal is gone. The value PC holds before the vector is loaded is never observed (log entry 10). -/
def State.resetSequence (s : State) : State :=
  let s1 :=
    { s with
      sp := s.cfg.resetSp, a := 0x00, x := 0x00, y := 0x00,
      flags :=
        { c := s.cfg.resetCzvn.c, z := s.cfg.resetCzvn.z, i := true, d := false, b := s.cfg.resetB,
          v := s.cfg.resetCzvn.v, n := s.cfg.resetCzvn.n } }
  let s2 := s1.loadVector resetVector
  let s3 := (s2.setFlags { s2.flags with i := false }).tick 5
  { s3 with ready := true, mark := .running }

end Sys2Proof.Machine
end

