-- ==== Sys2Proof/Machine/Operands.lean ====
section
/-! DEFINITION. The addressing-mode resolver (30_encoding.md R83-R99) and every operand form. In this file and the
instruction files, a state is the one after the opcode byte has been fetched; an operand byte that the instruction
carries is still fetched, so PC and the clock move as R77 says. -/

namespace Sys2Proof.Machine

/-- Access classes (R83). -/
inductive Access where
  | read | write | modify
deriving DecidableEq, Repr

/-- A memory operand: its mode with its operand byte or word (R87-R95). -/
inductive MemOperand where
  | zp   (b : Byte)
  | zpX  (b : Byte)
  | zpY  (b : Byte)
  | abs  (a : Word)
  | absX (a : Word)
  | absY (a : Word)
  | indX (b : Byte)
  | indY (b : Byte)
deriving DecidableEq, Repr

/-- The operand of a class R instruction: immediate (R86) or in memory. -/
inductive Operand where
  | imm (v : Byte)
  | mem (m : MemOperand)
deriving DecidableEq, Repr

/-- The operand of a shift or rotate: A (R85) or a memory cell. -/
inductive ShiftOperand where
  | acc
  | mem (m : MemOperand)
deriving DecidableEq, Repr

/-- `crossed(base, ea)`: the high bytes differ (R91). -/
def crossed (base ea : Word) : Bool := hi base != hi ea

/-- The indexed address and the page-crossing cycle: class R pays it on a crossing, W and RMW always (R91, R92, R95). -/
def State.indexed (s : State) (base : Word) (index : Byte) (cls : Access) : Word × State :=
  let ea := base + zext16 index
  match cls with
  | .read => (ea, if crossed base ea then s.tick 1 else s)
  | .write | .modify => (ea, s.tick 1)

/-- The 16-bit pointer in zero page at `p`; its second byte wraps inside page 0 (R94, R95). -/
def State.zpPointer (s : State) (p : Byte) : Word × State :=
  let l := s.memRead (zext16 p)
  let h := l.2.memRead (zext16 (p + 1))
  (word l.1 h.1, h.2)

/-- `EA(mode, class)`: the effective address, and the state after the fetches, pointer reads and ticks (R87-R95). -/
def State.ea (s : State) (m : MemOperand) (cls : Access) : Word × State :=
  match m with
  | .zp b => (zext16 b, s.takeByte)
  | .zpX b => (zext16 (b + s.x), s.takeByte.tick 1)
  | .zpY b => (zext16 (b + s.y), s.takeByte.tick 1)
  | .abs a => (a, s.takeWord)
  | .absX a => s.takeWord.indexed a s.x cls
  | .absY a => s.takeWord.indexed a s.y cls
  | .indX b => (s.takeByte.tick 1).zpPointer (b + s.x)
  | .indY b =>
    let p := s.takeByte.zpPointer b
    p.2.indexed p.1 s.y cls

/-- `ReadOperand(mode)` (R98). -/
def State.readOperand (s : State) (o : Operand) : Byte × State :=
  match o with
  | .imm v => (v, s.takeByte)
  | .mem m =>
    let e := s.ea m .read
    e.2.memRead e.1

/-- `Store(mode, v)` (R99). -/
def State.store (s : State) (m : MemOperand) (v : Byte) : State :=
  let e := s.ea m .write
  e.2.memWrite e.1 v

/-- `Modify(mode, f)` (R99): the old byte, the new byte and the state after the write. -/
def State.modify (s : State) (m : MemOperand) (f : Byte → Byte) : Byte × Byte × State :=
  let e := s.ea m .modify
  let v := e.2.memRead e.1
  let r := f v.1
  (v.1, r, (v.2.tick 1).memWrite e.1 r)

/-- `ApplyShift(mode, f)` (46_shift_rotate.md R139): the new byte, and the state with C and the operand written. -/
def State.applyShift (s : State) (o : ShiftOperand) (f : Byte → Bool → ShiftResult) : Byte × State :=
  let cin := s.flags.c
  match o with
  | .acc =>
    let s1 := s.tick 1
    let q := f s1.a cin
    (q.r, (s1.setA q.r).setFlags { s1.flags with c := q.cout })
  | .mem m =>
    let w := s.modify m (fun x => (f x cin).r)
    (w.2.1, w.2.2.setFlags { w.2.2.flags with c := (f w.1 cin).cout })

/-- The cell a JMP indirect takes the target's high byte from (R96). -/
def indirectHighAddr (wrap : Bool) (p : Word) : Word :=
  if wrap then word (lo p + 1) (hi p) else p + 1

/-- `Target(indirect)` (R96): JMP's pointer `p`, both operand bytes fetched first. -/
def State.indirectTarget (s : State) (p : Word) : Word × State :=
  let s1 := s.takeWord
  let tl := s1.memRead p
  let th := tl.2.memRead (indirectHighAddr s.cfg.jmpIndPageWrap p)
  (word tl.1 th.1, th.2)

/-- `Branch(cond)` (47_branch.md R144) with the offset byte `off`. -/
def State.branch (s : State) (cond : Bool) (off : Byte) : State :=
  let s1 := s.takeByte
  if cond then
    let s2 := s1.tick 1
    let target := s2.pc + sext16 off
    let s3 := if hi target != hi s2.pc then s2.tick 1 else s2
    s3.setPc target
  else s1

/-- The memory operand that a mode and its operand bytes name, where the mode is one of R87-R95. -/
def memOperandOf : Mode → List Byte → Option MemOperand
  | .zeroPage, [b] => some (.zp b)
  | .zeroPageX, [b] => some (.zpX b)
  | .zeroPageY, [b] => some (.zpY b)
  | .absolute, [l, h] => some (.abs (word l h))
  | .absoluteX, [l, h] => some (.absX (word l h))
  | .absoluteY, [l, h] => some (.absY (word l h))
  | .indexedIndirect, [b] => some (.indX b)
  | .indirectIndexed, [b] => some (.indY b)
  | _, _ => none

/-- An instruction's memory operand, where its mode has one. -/
def memOperand? (i : Instr) : Option MemOperand := memOperandOf i.mode i.operandBytes

/-- An instruction's class R operand, where its mode has one. -/
def operand? (i : Instr) : Option Operand :=
  match i.mode, i.operandBytes with
  | .immediate, [v] => some (.imm v)
  | mode, bytes => (memOperandOf mode bytes).map .mem

end Sys2Proof.Machine
end

