-- ==== Sys2Proof/Machine/Arithmetic.lean ====
section
/-! DEFINITION. Arithmetic and compare instructions (44_arithmetic.md R126-R132). -/

namespace Sys2Proof.Machine

/-- ADC and SBC are refused: D = 1 under DECIMAL_POLICY = refuse (R127, R128). -/
def decimalRefused (s : State) : Bool :=
  s.flags.d && s.cfg.decimalPolicy == .refuse

/-- A <- A + v + C with the flags of the adder: the common part of ADC and SBC (R127, R128). -/
def State.addToA (s : State) (v : Byte) : State :=
  let q := add8 s.a v s.flags.c
  (s.setA q.r).setFlags (setZN q.r { s.flags with c := q.cout, v := q.ovf })

/-- ADC (R127): add with carry, binary whatever D holds under the default policy. -/
def opAdc (o : Operand) (s : State) : Host.Outcome State Fault Refusal :=
  if decimalRefused s then .refused .decimalModeUnmodelled
  else
    let r := s.readOperand o
    .next (r.2.addToA r.1)

/-- ADC #v: byte 0x69. -/
def execAdcImm (v : Byte) (s : State) : Host.Outcome State Fault Refusal :=
  opAdc (.imm v) s

/-- ADC b: byte 0x65. -/
def execAdcZp (b : Byte) (s : State) : Host.Outcome State Fault Refusal :=
  opAdc (.mem (.zp b)) s

/-- ADC b,X: byte 0x75. -/
def execAdcZpX (b : Byte) (s : State) : Host.Outcome State Fault Refusal :=
  opAdc (.mem (.zpX b)) s

/-- ADC a: byte 0x6D. -/
def execAdcAbs (a : Word) (s : State) : Host.Outcome State Fault Refusal :=
  opAdc (.mem (.abs a)) s

/-- ADC a,X: byte 0x7D. -/
def execAdcAbsX (a : Word) (s : State) : Host.Outcome State Fault Refusal :=
  opAdc (.mem (.absX a)) s

/-- ADC a,Y: byte 0x79. -/
def execAdcAbsY (a : Word) (s : State) : Host.Outcome State Fault Refusal :=
  opAdc (.mem (.absY a)) s

/-- ADC (b,X): byte 0x61. -/
def execAdcIndX (b : Byte) (s : State) : Host.Outcome State Fault Refusal :=
  opAdc (.mem (.indX b)) s

/-- ADC (b),Y: byte 0x71. -/
def execAdcIndY (b : Byte) (s : State) : Host.Outcome State Fault Refusal :=
  opAdc (.mem (.indY b)) s

/-- SBC (R128): the adder on the operand's one's complement. -/
def opSbc (o : Operand) (s : State) : Host.Outcome State Fault Refusal :=
  if decimalRefused s then .refused .decimalModeUnmodelled
  else
    let r := s.readOperand o
    .next (r.2.addToA (r.1 ^^^ 0xFF))

/-- SBC #v: byte 0xE9. -/
def execSbcImm (v : Byte) (s : State) : Host.Outcome State Fault Refusal :=
  opSbc (.imm v) s

/-- SBC b: byte 0xE5. -/
def execSbcZp (b : Byte) (s : State) : Host.Outcome State Fault Refusal :=
  opSbc (.mem (.zp b)) s

/-- SBC b,X: byte 0xF5. -/
def execSbcZpX (b : Byte) (s : State) : Host.Outcome State Fault Refusal :=
  opSbc (.mem (.zpX b)) s

/-- SBC a: byte 0xED. -/
def execSbcAbs (a : Word) (s : State) : Host.Outcome State Fault Refusal :=
  opSbc (.mem (.abs a)) s

/-- SBC a,X: byte 0xFD. -/
def execSbcAbsX (a : Word) (s : State) : Host.Outcome State Fault Refusal :=
  opSbc (.mem (.absX a)) s

/-- SBC a,Y: byte 0xF9. -/
def execSbcAbsY (a : Word) (s : State) : Host.Outcome State Fault Refusal :=
  opSbc (.mem (.absY a)) s

/-- SBC (b,X): byte 0xE1. -/
def execSbcIndX (b : Byte) (s : State) : Host.Outcome State Fault Refusal :=
  opSbc (.mem (.indX b)) s

/-- SBC (b),Y: byte 0xF1. -/
def execSbcIndY (b : Byte) (s : State) : Host.Outcome State Fault Refusal :=
  opSbc (.mem (.indY b)) s

/-- CMP (R130): the register is not written. -/
def opCmp (o : Operand) (s : State) : State :=
  let r := s.readOperand o
  r.2.setFlags (compare8 r.2.a r.1 r.2.flags)

/-- CMP #v: byte 0xC9. -/
def execCmpImm (v : Byte) (s : State) : Host.Outcome State Fault Refusal :=
  .next (opCmp (.imm v) s)

/-- CMP b: byte 0xC5. -/
def execCmpZp (b : Byte) (s : State) : Host.Outcome State Fault Refusal :=
  .next (opCmp (.mem (.zp b)) s)

/-- CMP b,X: byte 0xD5. -/
def execCmpZpX (b : Byte) (s : State) : Host.Outcome State Fault Refusal :=
  .next (opCmp (.mem (.zpX b)) s)

/-- CMP a: byte 0xCD. -/
def execCmpAbs (a : Word) (s : State) : Host.Outcome State Fault Refusal :=
  .next (opCmp (.mem (.abs a)) s)

/-- CMP a,X: byte 0xDD. -/
def execCmpAbsX (a : Word) (s : State) : Host.Outcome State Fault Refusal :=
  .next (opCmp (.mem (.absX a)) s)

/-- CMP a,Y: byte 0xD9. -/
def execCmpAbsY (a : Word) (s : State) : Host.Outcome State Fault Refusal :=
  .next (opCmp (.mem (.absY a)) s)

/-- CMP (b,X): byte 0xC1. -/
def execCmpIndX (b : Byte) (s : State) : Host.Outcome State Fault Refusal :=
  .next (opCmp (.mem (.indX b)) s)

/-- CMP (b),Y: byte 0xD1. -/
def execCmpIndY (b : Byte) (s : State) : Host.Outcome State Fault Refusal :=
  .next (opCmp (.mem (.indY b)) s)

/-- CPX (R131): the register is not written. -/
def opCpx (o : Operand) (s : State) : State :=
  let r := s.readOperand o
  r.2.setFlags (compare8 r.2.x r.1 r.2.flags)

/-- CPX #v: byte 0xE0. -/
def execCpxImm (v : Byte) (s : State) : Host.Outcome State Fault Refusal :=
  .next (opCpx (.imm v) s)

/-- CPX b: byte 0xE4. -/
def execCpxZp (b : Byte) (s : State) : Host.Outcome State Fault Refusal :=
  .next (opCpx (.mem (.zp b)) s)

/-- CPX a: byte 0xEC. -/
def execCpxAbs (a : Word) (s : State) : Host.Outcome State Fault Refusal :=
  .next (opCpx (.mem (.abs a)) s)

/-- CPY (R132): the register is not written. -/
def opCpy (o : Operand) (s : State) : State :=
  let r := s.readOperand o
  r.2.setFlags (compare8 r.2.y r.1 r.2.flags)

/-- CPY #v: byte 0xC0. -/
def execCpyImm (v : Byte) (s : State) : Host.Outcome State Fault Refusal :=
  .next (opCpy (.imm v) s)

/-- CPY b: byte 0xC4. -/
def execCpyZp (b : Byte) (s : State) : Host.Outcome State Fault Refusal :=
  .next (opCpy (.mem (.zp b)) s)

/-- CPY a: byte 0xCC. -/
def execCpyAbs (a : Word) (s : State) : Host.Outcome State Fault Refusal :=
  .next (opCpy (.mem (.abs a)) s)

end Sys2Proof.Machine
end

