-- ==== Sys2Proof/Machine/Branch.lean ====
section
/-! DEFINITION. Branch instructions (47_branch.md R144-R152). No branch writes a flag. -/

namespace Sys2Proof.Machine

/-- BCC (R145): `Branch(C = 0)`. -/
def opBcc (off : Byte) (s : State) : State :=
  s.branch (!s.flags.c) off

/-- BCC off: byte 0x90. -/
def execBcc (off : Byte) (s : State) : Host.Outcome State Fault Refusal :=
  .next (opBcc off s)

/-- BCS (R146): `Branch(C = 1)`. -/
def opBcs (off : Byte) (s : State) : State :=
  s.branch s.flags.c off

/-- BCS off: byte 0xB0. -/
def execBcs (off : Byte) (s : State) : Host.Outcome State Fault Refusal :=
  .next (opBcs off s)

/-- BEQ (R147): `Branch(Z = 1)`. -/
def opBeq (off : Byte) (s : State) : State :=
  s.branch s.flags.z off

/-- BEQ off: byte 0xF0. -/
def execBeq (off : Byte) (s : State) : Host.Outcome State Fault Refusal :=
  .next (opBeq off s)

/-- BMI (R148): `Branch(N = 1)`. -/
def opBmi (off : Byte) (s : State) : State :=
  s.branch s.flags.n off

/-- BMI off: byte 0x30. -/
def execBmi (off : Byte) (s : State) : Host.Outcome State Fault Refusal :=
  .next (opBmi off s)

/-- BNE (R149): `Branch(Z = 0)`. -/
def opBne (off : Byte) (s : State) : State :=
  s.branch (!s.flags.z) off

/-- BNE off: byte 0xD0. -/
def execBne (off : Byte) (s : State) : Host.Outcome State Fault Refusal :=
  .next (opBne off s)

/-- BPL (R150): `Branch(N = 0)`. -/
def opBpl (off : Byte) (s : State) : State :=
  s.branch (!s.flags.n) off

/-- BPL off: byte 0x10. -/
def execBpl (off : Byte) (s : State) : Host.Outcome State Fault Refusal :=
  .next (opBpl off s)

/-- BVC (R151): `Branch(V = 0)`. -/
def opBvc (off : Byte) (s : State) : State :=
  s.branch (!s.flags.v) off

/-- BVC off: byte 0x50. -/
def execBvc (off : Byte) (s : State) : Host.Outcome State Fault Refusal :=
  .next (opBvc off s)

/-- BVS (R152): `Branch(V = 1)`. -/
def opBvs (off : Byte) (s : State) : State :=
  s.branch s.flags.v off

/-- BVS off: byte 0x70. -/
def execBvs (off : Byte) (s : State) : Host.Outcome State Fault Refusal :=
  .next (opBvs off s)

end Sys2Proof.Machine
end

