-- ==== Sys2Proof/Machine/FlagMisc.lean ====
section
/-! DEFINITION. Flag changes, BRK, RTI, NOP and RES (49_flag_interrupt_misc.md R156-R166). -/

namespace Sys2Proof.Machine

/-- CLC (R156): one internal tick, one flag. -/
def opClc (s : State) : State :=
  let s1 := s.tick 1
  s1.setFlags { s1.flags with c := false }

/-- CLC: byte 0x18. -/
def execClc (s : State) : Host.Outcome State Fault Refusal :=
  .next (opClc s)

/-- CLD (R157): one internal tick, one flag. -/
def opCld (s : State) : State :=
  let s1 := s.tick 1
  s1.setFlags { s1.flags with d := false }

/-- CLD: byte 0xD8. -/
def execCld (s : State) : Host.Outcome State Fault Refusal :=
  .next (opCld s)

/-- CLI (R158): one internal tick, one flag. -/
def opCli (s : State) : State :=
  let s1 := s.tick 1
  s1.setFlags { s1.flags with i := false }

/-- CLI: byte 0x58. -/
def execCli (s : State) : Host.Outcome State Fault Refusal :=
  .next (opCli s)

/-- CLV (R159): one internal tick, one flag. -/
def opClv (s : State) : State :=
  let s1 := s.tick 1
  s1.setFlags { s1.flags with v := false }

/-- CLV: byte 0xB8. -/
def execClv (s : State) : Host.Outcome State Fault Refusal :=
  .next (opClv s)

/-- SEC (R160): one internal tick, one flag. -/
def opSec (s : State) : State :=
  let s1 := s.tick 1
  s1.setFlags { s1.flags with c := true }

/-- SEC: byte 0x38. -/
def execSec (s : State) : Host.Outcome State Fault Refusal :=
  .next (opSec s)

/-- SED (R161): one internal tick, one flag. -/
def opSed (s : State) : State :=
  let s1 := s.tick 1
  s1.setFlags { s1.flags with d := true }

/-- SED: byte 0xF8. -/
def execSed (s : State) : Host.Outcome State Fault Refusal :=
  .next (opSed s)

/-- SEI (R162): one internal tick, one flag. -/
def opSei (s : State) : State :=
  let s1 := s.tick 1
  s1.setFlags { s1.flags with i := true }

/-- SEI: byte 0x78. -/
def execSei (s : State) : Host.Outcome State Fault Refusal :=
  .next (opSei s)

/-- BRK (R163): skip the signature byte (or tick), then the trap entry. -/
def opBrk (s : State) : State :=
  let s1 := if s.cfg.brkSignature then s.takeByte else s.tick 1
  s1.enterBreak

/-- BRK: byte 0x00. -/
def execBrk (s : State) : Host.Outcome State Fault Refusal :=
  .next (opBrk s)

/-- RTI (R164): two internal ticks, then the trap return. -/
def opRti (s : State) : State :=
  (s.tick 2).returnFromBreak

/-- RTI: byte 0x40. -/
def execRti (s : State) : Host.Outcome State Fault Refusal :=
  .next (opRti s)

/-- NOP (R165). -/
def opNop (s : State) : State :=
  if s.cfg.nopSkipsByte then s.takeByte else s.tick 1

/-- NOP: byte 0xEA. -/
def execNop (s : State) : Host.Outcome State Fault Refusal :=
  .next (opNop s)

/-- RES (R166): the whole reset sequence. -/
def opRes (s : State) : State :=
  s.resetSequence

/-- RES: byte RES_OPCODE. -/
def execRes (s : State) : Host.Outcome State Fault Refusal :=
  .next (opRes s)

end Sys2Proof.Machine
end

