-- ==== Sys2Proof/Machine/IncDec.lean ====
section
/-! DEFINITION. Increment and decrement instructions (45_increment_decrement.md R133-R138). -/

namespace Sys2Proof.Machine

/-- INC (R133): Z and N from the new value. -/
def opInc (m : MemOperand) (s : State) : State :=
  let w := s.modify m (fun x => x + 1)
  w.2.2.setFlags (setZN w.2.1 w.2.2.flags)

/-- INC b: byte 0xE6. -/
def execIncZp (b : Byte) (s : State) : Host.Outcome State Fault Refusal :=
  .next (opInc (.zp b) s)

/-- INC b,X: byte 0xF6. -/
def execIncZpX (b : Byte) (s : State) : Host.Outcome State Fault Refusal :=
  .next (opInc (.zpX b) s)

/-- INC a: byte 0xEE. -/
def execIncAbs (a : Word) (s : State) : Host.Outcome State Fault Refusal :=
  .next (opInc (.abs a) s)

/-- INC a,X: byte 0xFE. -/
def execIncAbsX (a : Word) (s : State) : Host.Outcome State Fault Refusal :=
  .next (opInc (.absX a) s)

/-- INX (R134): one internal tick; Z and N from the new value. -/
def opInx (s : State) : State :=
  let s1 := s.tick 1
  let v := s1.x + 1
  (s1.setX v).setFlags (setZN v s1.flags)

/-- INX: byte 0xE8. -/
def execInx (s : State) : Host.Outcome State Fault Refusal :=
  .next (opInx s)

/-- INY (R135): one internal tick; Z and N from the new value. -/
def opIny (s : State) : State :=
  let s1 := s.tick 1
  let v := s1.y + 1
  (s1.setY v).setFlags (setZN v s1.flags)

/-- INY: byte 0xC8. -/
def execIny (s : State) : Host.Outcome State Fault Refusal :=
  .next (opIny s)

/-- DEC (R136): Z and N from the new value. -/
def opDec (m : MemOperand) (s : State) : State :=
  let w := s.modify m (fun x => x - 1)
  w.2.2.setFlags (setZN w.2.1 w.2.2.flags)

/-- DEC b: byte 0xC6. -/
def execDecZp (b : Byte) (s : State) : Host.Outcome State Fault Refusal :=
  .next (opDec (.zp b) s)

/-- DEC b,X: byte 0xD6. -/
def execDecZpX (b : Byte) (s : State) : Host.Outcome State Fault Refusal :=
  .next (opDec (.zpX b) s)

/-- DEC a: byte 0xCE. -/
def execDecAbs (a : Word) (s : State) : Host.Outcome State Fault Refusal :=
  .next (opDec (.abs a) s)

/-- DEC a,X: byte 0xDE. -/
def execDecAbsX (a : Word) (s : State) : Host.Outcome State Fault Refusal :=
  .next (opDec (.absX a) s)

/-- DEX (R137): one internal tick; Z and N from the new value. -/
def opDex (s : State) : State :=
  let s1 := s.tick 1
  let v := s1.x - 1
  (s1.setX v).setFlags (setZN v s1.flags)

/-- DEX: byte 0xCA. -/
def execDex (s : State) : Host.Outcome State Fault Refusal :=
  .next (opDex s)

/-- DEY (R138): one internal tick; Z and N from the new value. -/
def opDey (s : State) : State :=
  let s1 := s.tick 1
  let v := s1.y - 1
  (s1.setY v).setFlags (setZN v s1.flags)

/-- DEY: byte 0x88. -/
def execDey (s : State) : Host.Outcome State Fault Refusal :=
  .next (opDey s)

end Sys2Proof.Machine
end

