-- ==== Sys2Proof/Machine/Jump.lean ====
section
/-! DEFINITION. Jump and call instructions (48_jump_call.md R153-R155). None writes a flag. -/

namespace Sys2Proof.Machine

/-- JMP absolute (R153). -/
def opJmp (a : Word) (s : State) : State :=
  s.takeWord.setPc a

/-- JMP indirect (R153, 30_encoding.md R96). -/
def opJmpIndirect (a : Word) (s : State) : State :=
  let t := s.indirectTarget a
  t.2.setPc t.1

/-- JMP a: byte 0x4C. -/
def execJmpAbs (a : Word) (s : State) : Host.Outcome State Fault Refusal :=
  .next (opJmp a s)

/-- JMP (a): byte 0x6C. -/
def execJmpInd (a : Word) (s : State) : Host.Outcome State Fault Refusal :=
  .next (opJmpIndirect a s)

/-- JSR (R154): pushes the address of its own last byte; both target bytes are fetched before the pushes. -/
def opJsr (a : Word) (s : State) : State :=
  let s1 := s.takeWord.tick 1
  (s1.pushWord (s1.pc - 1)).setPc a

/-- JSR a: byte 0x20. -/
def execJsr (a : Word) (s : State) : Host.Outcome State Fault Refusal :=
  .next (opJsr a s)

/-- RTS (R155): PC <- the pulled word + 1 mod 65536. -/
def opRts (s : State) : State :=
  let w := (s.tick 2).pullWord
  (w.2.setPc (w.1 + 1)).tick 1

/-- RTS: byte 0x60. -/
def execRts (s : State) : Host.Outcome State Fault Refusal :=
  .next (opRts s)

end Sys2Proof.Machine
end

