-- ==== Sys2Proof/Machine/LoadStore.lean ====
section
/-! DEFINITION. Loads, transfers and stores (41_load_store_transfer.md R106-R117). -/

namespace Sys2Proof.Machine

/-! ## Loads -/

/-- LDA (R106): the register takes the operand; Z and N from it. -/
def opLda (o : Operand) (s : State) : State :=
  let r := s.readOperand o
  (r.2.setA r.1).setFlags (setZN r.1 r.2.flags)

/-- LDA #v: byte 0xA9. -/
def execLdaImm (v : Byte) (s : State) : Host.Outcome State Fault Refusal :=
  .next (opLda (.imm v) s)

/-- LDA b: byte 0xA5. -/
def execLdaZp (b : Byte) (s : State) : Host.Outcome State Fault Refusal :=
  .next (opLda (.mem (.zp b)) s)

/-- LDA b,X: byte 0xB5. -/
def execLdaZpX (b : Byte) (s : State) : Host.Outcome State Fault Refusal :=
  .next (opLda (.mem (.zpX b)) s)

/-- LDA a: byte 0xAD. -/
def execLdaAbs (a : Word) (s : State) : Host.Outcome State Fault Refusal :=
  .next (opLda (.mem (.abs a)) s)

/-- LDA a,X: byte 0xBD. -/
def execLdaAbsX (a : Word) (s : State) : Host.Outcome State Fault Refusal :=
  .next (opLda (.mem (.absX a)) s)

/-- LDA a,Y: byte 0xB9. -/
def execLdaAbsY (a : Word) (s : State) : Host.Outcome State Fault Refusal :=
  .next (opLda (.mem (.absY a)) s)

/-- LDA (b,X): byte 0xA1. -/
def execLdaIndX (b : Byte) (s : State) : Host.Outcome State Fault Refusal :=
  .next (opLda (.mem (.indX b)) s)

/-- LDA (b),Y: byte 0xB1. -/
def execLdaIndY (b : Byte) (s : State) : Host.Outcome State Fault Refusal :=
  .next (opLda (.mem (.indY b)) s)

/-- LDX (R107): the register takes the operand; Z and N from it. -/
def opLdx (o : Operand) (s : State) : State :=
  let r := s.readOperand o
  (r.2.setX r.1).setFlags (setZN r.1 r.2.flags)

/-- LDX #v: byte 0xA2. -/
def execLdxImm (v : Byte) (s : State) : Host.Outcome State Fault Refusal :=
  .next (opLdx (.imm v) s)

/-- LDX b: byte 0xA6. -/
def execLdxZp (b : Byte) (s : State) : Host.Outcome State Fault Refusal :=
  .next (opLdx (.mem (.zp b)) s)

/-- LDX b,Y: byte 0xB6. -/
def execLdxZpY (b : Byte) (s : State) : Host.Outcome State Fault Refusal :=
  .next (opLdx (.mem (.zpY b)) s)

/-- LDX a: byte 0xAE. -/
def execLdxAbs (a : Word) (s : State) : Host.Outcome State Fault Refusal :=
  .next (opLdx (.mem (.abs a)) s)

/-- LDX a,Y: byte 0xBE. -/
def execLdxAbsY (a : Word) (s : State) : Host.Outcome State Fault Refusal :=
  .next (opLdx (.mem (.absY a)) s)

/-- LDY (R108): the register takes the operand; Z and N from it. -/
def opLdy (o : Operand) (s : State) : State :=
  let r := s.readOperand o
  (r.2.setY r.1).setFlags (setZN r.1 r.2.flags)

/-- LDY #v: byte 0xA0. -/
def execLdyImm (v : Byte) (s : State) : Host.Outcome State Fault Refusal :=
  .next (opLdy (.imm v) s)

/-- LDY b: byte 0xA4. -/
def execLdyZp (b : Byte) (s : State) : Host.Outcome State Fault Refusal :=
  .next (opLdy (.mem (.zp b)) s)

/-- LDY b,X: byte 0xB4. -/
def execLdyZpX (b : Byte) (s : State) : Host.Outcome State Fault Refusal :=
  .next (opLdy (.mem (.zpX b)) s)

/-- LDY a: byte 0xAC. -/
def execLdyAbs (a : Word) (s : State) : Host.Outcome State Fault Refusal :=
  .next (opLdy (.mem (.abs a)) s)

/-- LDY a,X: byte 0xBC. -/
def execLdyAbsX (a : Word) (s : State) : Host.Outcome State Fault Refusal :=
  .next (opLdy (.mem (.absX a)) s)

/-! ## Transfers -/

/-- TAX (R109): one internal tick; Z and N from the value moved. -/
def opTax (s : State) : State :=
  let s1 := s.tick 1
  (s1.setX s1.a).setFlags (setZN s1.a s1.flags)

/-- TAX: byte 0xAA. -/
def execTax (s : State) : Host.Outcome State Fault Refusal :=
  .next (opTax s)

/-- TAY (R110): one internal tick; Z and N from the value moved. -/
def opTay (s : State) : State :=
  let s1 := s.tick 1
  (s1.setY s1.a).setFlags (setZN s1.a s1.flags)

/-- TAY: byte 0xA8. -/
def execTay (s : State) : Host.Outcome State Fault Refusal :=
  .next (opTay s)

/-- TXA (R111): one internal tick; Z and N from the value moved. -/
def opTxa (s : State) : State :=
  let s1 := s.tick 1
  (s1.setA s1.x).setFlags (setZN s1.x s1.flags)

/-- TXA: byte 0x8A. -/
def execTxa (s : State) : Host.Outcome State Fault Refusal :=
  .next (opTxa s)

/-- TYA (R112): one internal tick; Z and N from the value moved. -/
def opTya (s : State) : State :=
  let s1 := s.tick 1
  (s1.setA s1.y).setFlags (setZN s1.y s1.flags)

/-- TYA: byte 0x98. -/
def execTya (s : State) : Host.Outcome State Fault Refusal :=
  .next (opTya s)

/-- TSX (R113): one internal tick; Z and N from the value moved. -/
def opTsx (s : State) : State :=
  let s1 := s.tick 1
  (s1.setX s1.sp).setFlags (setZN s1.sp s1.flags)

/-- TSX: byte 0xBA. -/
def execTsx (s : State) : Host.Outcome State Fault Refusal :=
  .next (opTsx s)

/-- TXS (R114): sets no flags. -/
def opTxs (s : State) : State :=
  let s1 := s.tick 1
  s1.setSp s1.x

/-- TXS: byte 0x9A. -/
def execTxs (s : State) : Host.Outcome State Fault Refusal :=
  .next (opTxs s)

/-! ## Stores: no flags affected -/

/-- STA (R115). -/
def opSta (m : MemOperand) (s : State) : State :=
  s.store m s.a

/-- STA b: byte 0x85. -/
def execStaZp (b : Byte) (s : State) : Host.Outcome State Fault Refusal :=
  .next (opSta (.zp b) s)

/-- STA b,X: byte 0x95. -/
def execStaZpX (b : Byte) (s : State) : Host.Outcome State Fault Refusal :=
  .next (opSta (.zpX b) s)

/-- STA a: byte 0x8D. -/
def execStaAbs (a : Word) (s : State) : Host.Outcome State Fault Refusal :=
  .next (opSta (.abs a) s)

/-- STA a,X: byte 0x9D. -/
def execStaAbsX (a : Word) (s : State) : Host.Outcome State Fault Refusal :=
  .next (opSta (.absX a) s)

/-- STA a,Y: byte 0x99. -/
def execStaAbsY (a : Word) (s : State) : Host.Outcome State Fault Refusal :=
  .next (opSta (.absY a) s)

/-- STA (b,X): byte 0x81. -/
def execStaIndX (b : Byte) (s : State) : Host.Outcome State Fault Refusal :=
  .next (opSta (.indX b) s)

/-- STA (b),Y: byte 0x91. -/
def execStaIndY (b : Byte) (s : State) : Host.Outcome State Fault Refusal :=
  .next (opSta (.indY b) s)

/-- STX (R116). -/
def opStx (m : MemOperand) (s : State) : State :=
  s.store m s.x

/-- STX b: byte 0x86. -/
def execStxZp (b : Byte) (s : State) : Host.Outcome State Fault Refusal :=
  .next (opStx (.zp b) s)

/-- STX b,Y: byte 0x96. -/
def execStxZpY (b : Byte) (s : State) : Host.Outcome State Fault Refusal :=
  .next (opStx (.zpY b) s)

/-- STX a: byte 0x8E. -/
def execStxAbs (a : Word) (s : State) : Host.Outcome State Fault Refusal :=
  .next (opStx (.abs a) s)

/-- STY (R117). -/
def opSty (m : MemOperand) (s : State) : State :=
  s.store m s.y

/-- STY b: byte 0x84. -/
def execStyZp (b : Byte) (s : State) : Host.Outcome State Fault Refusal :=
  .next (opSty (.zp b) s)

/-- STY b,X: byte 0x94. -/
def execStyZpX (b : Byte) (s : State) : Host.Outcome State Fault Refusal :=
  .next (opSty (.zpX b) s)

/-- STY a: byte 0x8C. -/
def execStyAbs (a : Word) (s : State) : Host.Outcome State Fault Refusal :=
  .next (opSty (.abs a) s)

end Sys2Proof.Machine
end

