-- ==== Sys2Proof/Machine/Logical.lean ====
section
/-! DEFINITION. Logical instructions (43_logical.md R122-R125). -/

namespace Sys2Proof.Machine

/-- AND (R122): A <- A AND operand; Z and N from the result. -/
def opAnd (o : Operand) (s : State) : State :=
  let r := s.readOperand o
  let v := r.2.a &&& r.1
  (r.2.setA v).setFlags (setZN v r.2.flags)

/-- AND #v: byte 0x29. -/
def execAndImm (v : Byte) (s : State) : Host.Outcome State Fault Refusal :=
  .next (opAnd (.imm v) s)

/-- AND b: byte 0x25. -/
def execAndZp (b : Byte) (s : State) : Host.Outcome State Fault Refusal :=
  .next (opAnd (.mem (.zp b)) s)

/-- AND b,X: byte 0x35. -/
def execAndZpX (b : Byte) (s : State) : Host.Outcome State Fault Refusal :=
  .next (opAnd (.mem (.zpX b)) s)

/-- AND a: byte 0x2D. -/
def execAndAbs (a : Word) (s : State) : Host.Outcome State Fault Refusal :=
  .next (opAnd (.mem (.abs a)) s)

/-- AND a,X: byte 0x3D. -/
def execAndAbsX (a : Word) (s : State) : Host.Outcome State Fault Refusal :=
  .next (opAnd (.mem (.absX a)) s)

/-- AND a,Y: byte 0x39. -/
def execAndAbsY (a : Word) (s : State) : Host.Outcome State Fault Refusal :=
  .next (opAnd (.mem (.absY a)) s)

/-- AND (b,X): byte 0x21. -/
def execAndIndX (b : Byte) (s : State) : Host.Outcome State Fault Refusal :=
  .next (opAnd (.mem (.indX b)) s)

/-- AND (b),Y: byte 0x31. -/
def execAndIndY (b : Byte) (s : State) : Host.Outcome State Fault Refusal :=
  .next (opAnd (.mem (.indY b)) s)

/-- EOR (R123): A <- A XOR operand; Z and N from the result. -/
def opEor (o : Operand) (s : State) : State :=
  let r := s.readOperand o
  let v := r.2.a ^^^ r.1
  (r.2.setA v).setFlags (setZN v r.2.flags)

/-- EOR #v: byte 0x49. -/
def execEorImm (v : Byte) (s : State) : Host.Outcome State Fault Refusal :=
  .next (opEor (.imm v) s)

/-- EOR b: byte 0x45. -/
def execEorZp (b : Byte) (s : State) : Host.Outcome State Fault Refusal :=
  .next (opEor (.mem (.zp b)) s)

/-- EOR b,X: byte 0x55. -/
def execEorZpX (b : Byte) (s : State) : Host.Outcome State Fault Refusal :=
  .next (opEor (.mem (.zpX b)) s)

/-- EOR a: byte 0x4D. -/
def execEorAbs (a : Word) (s : State) : Host.Outcome State Fault Refusal :=
  .next (opEor (.mem (.abs a)) s)

/-- EOR a,X: byte 0x5D. -/
def execEorAbsX (a : Word) (s : State) : Host.Outcome State Fault Refusal :=
  .next (opEor (.mem (.absX a)) s)

/-- EOR a,Y: byte 0x59. -/
def execEorAbsY (a : Word) (s : State) : Host.Outcome State Fault Refusal :=
  .next (opEor (.mem (.absY a)) s)

/-- EOR (b,X): byte 0x41. -/
def execEorIndX (b : Byte) (s : State) : Host.Outcome State Fault Refusal :=
  .next (opEor (.mem (.indX b)) s)

/-- EOR (b),Y: byte 0x51. -/
def execEorIndY (b : Byte) (s : State) : Host.Outcome State Fault Refusal :=
  .next (opEor (.mem (.indY b)) s)

/-- ORA (R124): A <- A OR operand; Z and N from the result. -/
def opOra (o : Operand) (s : State) : State :=
  let r := s.readOperand o
  let v := r.2.a ||| r.1
  (r.2.setA v).setFlags (setZN v r.2.flags)

/-- ORA #v: byte 0x09. -/
def execOraImm (v : Byte) (s : State) : Host.Outcome State Fault Refusal :=
  .next (opOra (.imm v) s)

/-- ORA b: byte 0x05. -/
def execOraZp (b : Byte) (s : State) : Host.Outcome State Fault Refusal :=
  .next (opOra (.mem (.zp b)) s)

/-- ORA b,X: byte 0x15. -/
def execOraZpX (b : Byte) (s : State) : Host.Outcome State Fault Refusal :=
  .next (opOra (.mem (.zpX b)) s)

/-- ORA a: byte 0x0D. -/
def execOraAbs (a : Word) (s : State) : Host.Outcome State Fault Refusal :=
  .next (opOra (.mem (.abs a)) s)

/-- ORA a,X: byte 0x1D. -/
def execOraAbsX (a : Word) (s : State) : Host.Outcome State Fault Refusal :=
  .next (opOra (.mem (.absX a)) s)

/-- ORA a,Y: byte 0x19. -/
def execOraAbsY (a : Word) (s : State) : Host.Outcome State Fault Refusal :=
  .next (opOra (.mem (.absY a)) s)

/-- ORA (b,X): byte 0x01. -/
def execOraIndX (b : Byte) (s : State) : Host.Outcome State Fault Refusal :=
  .next (opOra (.mem (.indX b)) s)

/-- ORA (b),Y: byte 0x11. -/
def execOraIndY (b : Byte) (s : State) : Host.Outcome State Fault Refusal :=
  .next (opOra (.mem (.indY b)) s)

/-- BIT (R125): Z from `A & v`, V and N from bits 6 and 7 of the operand; A is not written. -/
def opBit (o : Operand) (s : State) : State :=
  let r := s.readOperand o
  r.2.setFlags { r.2.flags with z := (r.2.a &&& r.1) == 0, v := r.1.getLsbD 6, n := r.1.getLsbD 7 }

/-- BIT b: byte 0x24. -/
def execBitZp (b : Byte) (s : State) : Host.Outcome State Fault Refusal :=
  .next (opBit (.mem (.zp b)) s)

/-- BIT a: byte 0x2C. -/
def execBitAbs (a : Word) (s : State) : Host.Outcome State Fault Refusal :=
  .next (opBit (.mem (.abs a)) s)

end Sys2Proof.Machine
end

