-- ==== Sys2Proof/Machine/Shift.lean ====
section
/-! DEFINITION. Shift and rotate instructions (46_shift_rotate.md R139-R143). -/

namespace Sys2Proof.Machine

/-- ASL (R140): Z and N from the new value. -/
def opAsl (o : ShiftOperand) (s : State) : State :=
  let q := s.applyShift o aslFn
  q.2.setFlags (setZN q.1 q.2.flags)

/-- ASL A: byte 0x0A. -/
def execAslAcc (s : State) : Host.Outcome State Fault Refusal :=
  .next (opAsl .acc s)

/-- ASL b: byte 0x06. -/
def execAslZp (b : Byte) (s : State) : Host.Outcome State Fault Refusal :=
  .next (opAsl (.mem (.zp b)) s)

/-- ASL b,X: byte 0x16. -/
def execAslZpX (b : Byte) (s : State) : Host.Outcome State Fault Refusal :=
  .next (opAsl (.mem (.zpX b)) s)

/-- ASL a: byte 0x0E. -/
def execAslAbs (a : Word) (s : State) : Host.Outcome State Fault Refusal :=
  .next (opAsl (.mem (.abs a)) s)

/-- ASL a,X: byte 0x1E. -/
def execAslAbsX (a : Word) (s : State) : Host.Outcome State Fault Refusal :=
  .next (opAsl (.mem (.absX a)) s)

/-- LSR (R141): Z from the new value, N forced to 0. -/
def opLsr (o : ShiftOperand) (s : State) : State :=
  let q := s.applyShift o lsrFn
  q.2.setFlags { q.2.flags with z := q.1 == 0, n := false }

/-- LSR A: byte 0x4A. -/
def execLsrAcc (s : State) : Host.Outcome State Fault Refusal :=
  .next (opLsr .acc s)

/-- LSR b: byte 0x46. -/
def execLsrZp (b : Byte) (s : State) : Host.Outcome State Fault Refusal :=
  .next (opLsr (.mem (.zp b)) s)

/-- LSR b,X: byte 0x56. -/
def execLsrZpX (b : Byte) (s : State) : Host.Outcome State Fault Refusal :=
  .next (opLsr (.mem (.zpX b)) s)

/-- LSR a: byte 0x4E. -/
def execLsrAbs (a : Word) (s : State) : Host.Outcome State Fault Refusal :=
  .next (opLsr (.mem (.abs a)) s)

/-- LSR a,X: byte 0x5E. -/
def execLsrAbsX (a : Word) (s : State) : Host.Outcome State Fault Refusal :=
  .next (opLsr (.mem (.absX a)) s)

/-- ROL (R142): Z and N from the new value. -/
def opRol (o : ShiftOperand) (s : State) : State :=
  let q := s.applyShift o rolFn
  q.2.setFlags (setZN q.1 q.2.flags)

/-- ROL A: byte 0x2A. -/
def execRolAcc (s : State) : Host.Outcome State Fault Refusal :=
  .next (opRol .acc s)

/-- ROL b: byte 0x26. -/
def execRolZp (b : Byte) (s : State) : Host.Outcome State Fault Refusal :=
  .next (opRol (.mem (.zp b)) s)

/-- ROL b,X: byte 0x36. -/
def execRolZpX (b : Byte) (s : State) : Host.Outcome State Fault Refusal :=
  .next (opRol (.mem (.zpX b)) s)

/-- ROL a: byte 0x2E. -/
def execRolAbs (a : Word) (s : State) : Host.Outcome State Fault Refusal :=
  .next (opRol (.mem (.abs a)) s)

/-- ROL a,X: byte 0x3E. -/
def execRolAbsX (a : Word) (s : State) : Host.Outcome State Fault Refusal :=
  .next (opRol (.mem (.absX a)) s)

/-- ROR (R143): Z and N from the new value. -/
def opRor (o : ShiftOperand) (s : State) : State :=
  let q := s.applyShift o rorFn
  q.2.setFlags (setZN q.1 q.2.flags)

/-- ROR A: byte 0x6A. -/
def execRorAcc (s : State) : Host.Outcome State Fault Refusal :=
  .next (opRor .acc s)

/-- ROR b: byte 0x66. -/
def execRorZp (b : Byte) (s : State) : Host.Outcome State Fault Refusal :=
  .next (opRor (.mem (.zp b)) s)

/-- ROR b,X: byte 0x76. -/
def execRorZpX (b : Byte) (s : State) : Host.Outcome State Fault Refusal :=
  .next (opRor (.mem (.zpX b)) s)

/-- ROR a: byte 0x6E. -/
def execRorAbs (a : Word) (s : State) : Host.Outcome State Fault Refusal :=
  .next (opRor (.mem (.abs a)) s)

/-- ROR a,X: byte 0x7E. -/
def execRorAbsX (a : Word) (s : State) : Host.Outcome State Fault Refusal :=
  .next (opRor (.mem (.absX a)) s)

end Sys2Proof.Machine
end

