-- ==== Sys2Proof/Machine/Stack.lean ====
section
/-! DEFINITION. Stack instructions (42_stack.md R118-R121). -/

namespace Sys2Proof.Machine

/-- PHA (R118). -/
def opPha (s : State) : State :=
  let s1 := s.tick 1
  s1.push s1.a

/-- PHA: byte 0x48. -/
def execPha (s : State) : Host.Outcome State Fault Refusal :=
  .next (opPha s)

/-- PHP (R119): pushes P with bit 5 = 1 and bit 4 = B. -/
def opPhp (s : State) : State :=
  let s1 := s.tick 1
  s1.push (pack s1.flags)

/-- PHP: byte 0x08. -/
def execPhp (s : State) : Host.Outcome State Fault Refusal :=
  .next (opPhp s)

/-- PLA (R120): Z and N from the pulled value. -/
def opPla (s : State) : State :=
  let r := (s.tick 2).pull
  (r.2.setA r.1).setFlags (setZN r.1 r.2.flags)

/-- PLA: byte 0x68. -/
def execPla (s : State) : Host.Outcome State Fault Refusal :=
  .next (opPla s)

/-- PLP (R121): B and bit 5 are not affected. -/
def opPlp (s : State) : State :=
  let r := (s.tick 2).pull
  r.2.setFlags (unpack r.1 r.2.flags)

/-- PLP: byte 0x28. -/
def execPlp (s : State) : Host.Outcome State Fault Refusal :=
  .next (opPlp s)

end Sys2Proof.Machine
end

