-- ==== Sys2Proof/Machine/Step.lean ====
section
/-! DEFINITION. One step of the core (30_encoding.md R82), and how the host places an instruction where it is fetched. -/

namespace Sys2Proof.Machine

/-- `Step()` (R82). The opcode byte is fetched (one cycle, PC + 1); DISPATCH decides; a mapped pair is executed from the
state after that fetch, with the operand bytes the memory holds at that PC (log entry 6). A marked state has no step in
the spec (00_scope.md R18): it answers its own reason again (DEDUCED, log entry 5). -/
def step (s : State) : Host.Outcome State Fault Refusal :=
  match s.mark with
  | .faulted r => .fault r
  | .refused r => .refused r
  | .running =>
    if s.ready then
      let f := s.fetchByte
      match rowOf s.cfg f.1 with
      | none => .next (f.2.logUnmapped s.pc f.1)
      | some r => exec (f.2.instrAtPc r) f.2
    else .fault .notReset

/-- The state in which the very next step fetches and runs the instruction whose bits are `w`: its three bytes stand at
PC, and reset has run with no fault or refusal (log entry 7). -/
def State.withFetchWord (s : State) (nbits w : Nat) : State :=
  { s with mem := Memory.writeBytes s.mem s.pc (tableWordBytes nbits w), ready := true, mark := .running }

end Sys2Proof.Machine
end

