-- ==== Sys2Proof/Machine/Api.lean ====
section
/-! DEFINITION. The core's host interface (00_scope.md R20-R27): what the outside world does between steps. No step
calls any of these. -/

namespace Sys2Proof.Machine

/-- `reset()` (R20): the reset sequence. It also ends a stopped run: the mark does not carry over
(70_reset_and_hazards.md R184). -/
def apiReset (s : State) : State := s.resetSequence

/-- One step of a run: a fault or refusal freezes the state and marks it (R18). -/
def apiStep (s : State) : State :=
  match step s with
  | .next t => t
  | .fault r => { s with mark := .faulted r }
  | .refused r => { s with mark := .refused r }

/-- `execute(n)` (R21): n steps; after a fault or refusal the remaining steps are not run. The state's mark is the
outcome. -/
def apiExecute : Nat → State → State
  | 0, s => s
  | n + 1, s =>
    match step s with
    | .next t => apiExecute n t
    | .fault r => { s with mark := .faulted r }
    | .refused r => { s with mark := .refused r }

/-- `read_byte(a)` (R22). -/
def apiReadByte (s : State) (a : Word) : Byte := s.mem.read a

/-- `read_word(a)` (R22): little-endian, wrapping at the top of memory. -/
def apiReadWord (s : State) (a : Word) : Word := word (s.mem.read a) (s.mem.read (a + 1))

/-- `read_range(address, n)` (R22). -/
def apiReadRange (s : State) : Word → Nat → List Byte
  | _, 0 => []
  | a, n + 1 => s.mem.read a :: apiReadRange s (a + 1) n

/-- `write_byte(a, v)` (R23): the clock does not move. -/
def apiWriteByte (s : State) (a : Word) (v : Byte) : State := { s with mem := s.mem.write a v }

/-- `write_word(a, w)` (R23): the low byte, then the high byte at the next address. -/
def apiWriteWord (s : State) (a w : Word) : State := apiWriteByte (apiWriteByte s a (lo w)) (a + 1) (hi w)

/-- Load a program image: raw bytes from an address on (R23, 70_reset_and_hazards.md R186). -/
def apiLoad (s : State) (a : Word) (bytes : List Byte) : State := { s with mem := Memory.writeBytes s.mem a bytes }

/-- What the register and flag accessors name (R24). -/
inductive HostReg where
  | a | x | y | sp | pc
  | c | z | i | d | b | v | n
deriving DecidableEq, Repr

/-- A register or flag read (R24), as a number: refused (`none`) while reset has not run. -/
def apiReadReg (s : State) (r : HostReg) : Option Nat :=
  if s.ready then
    some (match r with
      | .a => s.a.toNat
      | .x => s.x.toNat
      | .y => s.y.toNat
      | .sp => s.sp.toNat
      | .pc => s.pc.toNat
      | .c => s.flags.c.toNat
      | .z => s.flags.z.toNat
      | .i => s.flags.i.toNat
      | .d => s.flags.d.toNat
      | .b => s.flags.b.toNat
      | .v => s.flags.v.toNat
      | .n => s.flags.n.toNat)
  else none

/-- A number truncated to a flag's one bit. -/
def truncFlag (k : Nat) : Bool := k % 2 == 1

/-- A register or flag write (R24): the value given, truncated to the register's width. -/
def apiWriteReg (s : State) (r : HostReg) (k : Nat) : State :=
  match r with
  | .a => { s with a := BitVec.ofNat 8 k }
  | .x => { s with x := BitVec.ofNat 8 k }
  | .y => { s with y := BitVec.ofNat 8 k }
  | .sp => { s with sp := BitVec.ofNat 8 k }
  | .pc => { s with pc := BitVec.ofNat 16 k }
  | .c => { s with flags := { s.flags with c := truncFlag k } }
  | .z => { s with flags := { s.flags with z := truncFlag k } }
  | .i => { s with flags := { s.flags with i := truncFlag k } }
  | .d => { s with flags := { s.flags with d := truncFlag k } }
  | .b => { s with flags := { s.flags with b := truncFlag k } }
  | .v => { s with flags := { s.flags with v := truncFlag k } }
  | .n => { s with flags := { s.flags with n := truncFlag k } }

/-- `cycle_count()` (R25). -/
def apiCycleCount (s : State) : Nat := s.clock

end Sys2Proof.Machine
end

