-- ==== Sys2Proof/WellFormed.lean ====
section
/-! DEFINITION. The checks on terms: a configuration's table (30_encoding.md R78, R79) and an instruction
against a configuration. Operand widths need no check: the types of Instr are exactly the widths of R75. -/

namespace Sys2Proof

/-- No two records of a table name the same byte: "every populated entry maps to exactly one" pair (R78). -/
def OpRow.distinct : List OpRow → Bool
  | [] => true
  | r :: rest => rest.all (fun r' => r'.opcode != r.opcode) && OpRow.distinct rest

/-- A well-formed table: no byte has two records. That every record's pair is one a rule defines (R79) is part of the type
OpRow. -/
def Config.wf (cfg : Config) : Bool := OpRow.distinct cfg.dispatch

/-- A record of the opcode table, or nothing where no rule defines the pair (R79). -/
def OpRow.build (op : Byte) (mn : Mnemonic) (mode : Mode) : Option OpRow :=
  if h : legalPair mn mode = true then some ⟨op, mn, mode, h⟩ else none

/-- The table of a list of records `(opcode, mnemonic, mode)`, or nothing where one of them is refused. -/
def OpRow.buildAll : List (Byte × Mnemonic × Mode) → Option (List OpRow)
  | [] => some []
  | (op, mn, mode) :: rest => (OpRow.build op mn mode).bind fun r => (OpRow.buildAll rest).map (r :: ·)

/-- Build a configuration with this table, or refuse it (R79). -/
def Config.build (cfg : Config) (table : List (Byte × Mnemonic × Mode)) : Option Config :=
  (OpRow.buildAll table).bind fun rows =>
    let c := { cfg with dispatch := rows }
    if c.wf then some c else none

/-- An instruction is well formed under a configuration when DISPATCH has a byte for its pair; RES so only when
RES_OPCODE binds it (R103, R166). -/
def Instr.wf (cfg : Config) (i : Instr) : Bool := (opcodeOf cfg i.mnemonic i.mode).isSome

end Sys2Proof
end

