-- ==== Sys2Proof/Safety.lean ====
section
/-! DEFINITION. What counts as a safe state and a safe run, in the terms the statements use. -/

namespace Sys2Proof.Machine

/-- A state a run is in between steps (70_reset_and_hazards.md R187's launch premise, and the model's own two
conditions): reset has run, no fault or refusal mark, memory in canonical form, one record a byte in DISPATCH. -/
abbrev State.Inv (s : State) : Prop :=
  s.ready = true ∧ s.mark = .running ∧ s.mem.wf = true ∧ s.cfg.wf = true

/-- The decimal refusal of 44_arithmetic.md R127 and R128 cannot arise: D = 0, or the policy is binary. -/
abbrev State.BinaryOk (s : State) : Prop := s.flags.d = false ∨ s.cfg.decimalPolicy = .binary

/-- `n` steps from `s` run without a fault or refusal. -/
def RunsSafely (n : Nat) (s : State) : Prop := ∃ t, Sys2Proof.core.run n s = .next t

end Sys2Proof.Machine
end

