-- ==== Sys2Proof/Certificates/Slice0/Obligations.lean ====
section
/-! DEFINITION. The statements for the provers. In a statement about `exec i s`, `s` is the state after the opcode byte has
been fetched (30_encoding.md R82: PC is past the opcode byte); `StepRunsTheDecodedInstruction` carries these to a step.
A next state written as `s` with named fields changed says that every other register, flag, log and memory is unchanged. -/

namespace Sys2Proof.Says

open Sys2Proof.Machine

/-! ## The statements' vocabulary -/

/-- The value of a class R operand: the immediate byte (R86), or the byte at the effective address (R98). -/
def valueOf (o : Operand) (s : State) : Byte :=
  match o with
  | .imm v => v
  | .mem m => s.mem.read (s.ea m .read).1

/-- PC past the instruction's operand bytes (R33, R75). -/
def pcAfter (i : Instr) (s : State) : Word := s.pc + BitVec.ofNat 16 i.mode.operandCount

/-- The flags with Z and N from a byte (R42), every other flag unchanged. -/
def znOf (v : Byte) (f : Flags) : Flags := { f with z := decide (v = 0), n := v.getLsbD 7 }

/-- The condition of each branch (R145-R152). -/
def branchCond (mn : Mnemonic) (f : Flags) : Bool :=
  match mn with
  | .bcc => !f.c
  | .bcs => f.c
  | .beq => f.z
  | .bmi => f.n
  | .bne => !f.z
  | .bpl => !f.n
  | .bvc => !f.v
  | .bvs => f.v
  | _ => false

/-- The document's shift and rotate results in numbers: the new value and the new carry (46_shift_rotate.md). -/
def shiftOf (mn : Mnemonic) (v : Byte) (c : Bool) : Nat × Bool :=
  match mn with
  | .asl => (v.toNat * 2 % 256, v.getLsbD 7)
  | .lsr => (v.toNat / 2, v.getLsbD 0)
  | .rol => (v.toNat * 2 % 256 + c.toNat, v.getLsbD 7)
  | .ror => (v.toNat / 2 + c.toNat * 128, v.getLsbD 0)
  | _ => (v.toNat, c)

/-- The four shift mnemonics. -/
def shifts : List Mnemonic := [.asl, .lsr, .rol, .ror]

/-- Class R (R83). -/
def classR : List Mnemonic := [.lda, .ldx, .ldy, .and, .eor, .ora, .bit, .adc, .sbc, .cmp, .cpx, .cpy]

/-- Class W and class RMW (R83). -/
def classWorRmw : List Mnemonic := [.sta, .stx, .sty, .asl, .lsr, .rol, .ror, .inc, .dec]

/-- The instructions R35 lists as writing C, with RES for the reset. -/
def carryWriters : List Mnemonic :=
  [.adc, .sbc, .cmp, .cpx, .cpy, .asl, .lsr, .rol, .ror, .clc, .sec, .plp, .rti, .res]

/-- The instructions R36 and R41 list as writing Z and N, with RES for the reset. -/
def zeroAndNegativeWriters : List Mnemonic :=
  [.lda, .ldx, .ldy, .tax, .tay, .txa, .tya, .tsx, .pla, .and, .eor, .ora, .adc, .sbc, .inc, .inx, .iny, .dec, .dex,
   .dey, .asl, .rol, .ror, .cmp, .cpx, .cpy, .bit, .lsr, .plp, .rti, .res]

/-- The sum of ADC and SBC as the flags they write (R126-R128): C, V, and Z and N from the result. -/
def sumFlags (a v : Byte) (f : Flags) : Flags :=
  let r : Byte := BitVec.ofNat 8 (a.toNat + v.toNat + f.c.toNat)
  { f with
    c := decide (255 < a.toNat + v.toNat + f.c.toNat)
    v := (a.getLsbD 7 == v.getLsbD 7) && (r.getLsbD 7 != a.getLsbD 7)
    z := decide (r = 0)
    n := r.getLsbD 7 }

/-- The flags of a comparison (R129). -/
def compareFlags (reg v : Byte) (f : Flags) : Flags :=
  { f with c := decide (v.toNat ≤ reg.toNat), z := decide (reg = v), n := (reg - v).getLsbD 7 }

/-- R194, the opcodes 0x00 to 0x0F. -/
def opTable0 : List (Byte × Mnemonic × Mode × Nat) := [
  (0x00, .brk, .implied, 7), (0x01, .ora, .indexedIndirect, 6), (0x05, .ora, .zeroPage, 3),
  (0x06, .asl, .zeroPage, 5), (0x08, .php, .implied, 3), (0x09, .ora, .immediate, 2),
  (0x0A, .asl, .accumulator, 2), (0x0D, .ora, .absolute, 4), (0x0E, .asl, .absolute, 6)]

/-- R194, the opcodes 0x10 to 0x1F. -/
def opTable1 : List (Byte × Mnemonic × Mode × Nat) := [
  (0x10, .bpl, .relative, 2), (0x11, .ora, .indirectIndexed, 5), (0x15, .ora, .zeroPageX, 4),
  (0x16, .asl, .zeroPageX, 6), (0x18, .clc, .implied, 2), (0x19, .ora, .absoluteY, 4),
  (0x1D, .ora, .absoluteX, 4), (0x1E, .asl, .absoluteX, 7)]

/-- R194, the opcodes 0x20 to 0x2F. -/
def opTable2 : List (Byte × Mnemonic × Mode × Nat) := [
  (0x20, .jsr, .absolute, 6), (0x21, .and, .indexedIndirect, 6), (0x24, .bit, .zeroPage, 3),
  (0x25, .and, .zeroPage, 3), (0x26, .rol, .zeroPage, 5), (0x28, .plp, .implied, 4),
  (0x29, .and, .immediate, 2), (0x2A, .rol, .accumulator, 2), (0x2C, .bit, .absolute, 4),
  (0x2D, .and, .absolute, 4), (0x2E, .rol, .absolute, 6)]

/-- R194, the opcodes 0x30 to 0x3F. -/
def opTable3 : List (Byte × Mnemonic × Mode × Nat) := [
  (0x30, .bmi, .relative, 2), (0x31, .and, .indirectIndexed, 5), (0x35, .and, .zeroPageX, 4),
  (0x36, .rol, .zeroPageX, 6), (0x38, .sec, .implied, 2), (0x39, .and, .absoluteY, 4),
  (0x3D, .and, .absoluteX, 4), (0x3E, .rol, .absoluteX, 7)]

/-- R194, the opcodes 0x40 to 0x4F. -/
def opTable4 : List (Byte × Mnemonic × Mode × Nat) := [
  (0x40, .rti, .implied, 6), (0x41, .eor, .indexedIndirect, 6), (0x45, .eor, .zeroPage, 3),
  (0x46, .lsr, .zeroPage, 5), (0x48, .pha, .implied, 3), (0x49, .eor, .immediate, 2),
  (0x4A, .lsr, .accumulator, 2), (0x4C, .jmp, .absolute, 3), (0x4D, .eor, .absolute, 4),
  (0x4E, .lsr, .absolute, 6)]

/-- R194, the opcodes 0x50 to 0x5F. -/
def opTable5 : List (Byte × Mnemonic × Mode × Nat) := [
  (0x50, .bvc, .relative, 2), (0x51, .eor, .indirectIndexed, 5), (0x55, .eor, .zeroPageX, 4),
  (0x56, .lsr, .zeroPageX, 6), (0x58, .cli, .implied, 2), (0x59, .eor, .absoluteY, 4),
  (0x5D, .eor, .absoluteX, 4), (0x5E, .lsr, .absoluteX, 7)]

/-- R194, the opcodes 0x60 to 0x6F. -/
def opTable6 : List (Byte × Mnemonic × Mode × Nat) := [
  (0x60, .rts, .implied, 6), (0x61, .adc, .indexedIndirect, 6), (0x65, .adc, .zeroPage, 3),
  (0x66, .ror, .zeroPage, 5), (0x68, .pla, .implied, 4), (0x69, .adc, .immediate, 2),
  (0x6A, .ror, .accumulator, 2), (0x6C, .jmp, .indirect, 5), (0x6D, .adc, .absolute, 4),
  (0x6E, .ror, .absolute, 6)]

/-- R194, the opcodes 0x70 to 0x7F. -/
def opTable7 : List (Byte × Mnemonic × Mode × Nat) := [
  (0x70, .bvs, .relative, 2), (0x71, .adc, .indirectIndexed, 5), (0x75, .adc, .zeroPageX, 4),
  (0x76, .ror, .zeroPageX, 6), (0x78, .sei, .implied, 2), (0x79, .adc, .absoluteY, 4),
  (0x7D, .adc, .absoluteX, 4), (0x7E, .ror, .absoluteX, 7)]

/-- R194, the opcodes 0x80 to 0x8F. -/
def opTable8 : List (Byte × Mnemonic × Mode × Nat) := [
  (0x81, .sta, .indexedIndirect, 6), (0x84, .sty, .zeroPage, 3), (0x85, .sta, .zeroPage, 3),
  (0x86, .stx, .zeroPage, 3), (0x88, .dey, .implied, 2), (0x8A, .txa, .implied, 2), (0x8C, .sty, .absolute, 4),
  (0x8D, .sta, .absolute, 4), (0x8E, .stx, .absolute, 4)]

/-- R194, the opcodes 0x90 to 0x9F. -/
def opTable9 : List (Byte × Mnemonic × Mode × Nat) := [
  (0x90, .bcc, .relative, 2), (0x91, .sta, .indirectIndexed, 6), (0x94, .sty, .zeroPageX, 4),
  (0x95, .sta, .zeroPageX, 4), (0x96, .stx, .zeroPageY, 4), (0x98, .tya, .implied, 2),
  (0x99, .sta, .absoluteY, 5), (0x9A, .txs, .implied, 2), (0x9D, .sta, .absoluteX, 5)]

/-- R194, the opcodes 0xA0 to 0xAF. -/
def opTableA : List (Byte × Mnemonic × Mode × Nat) := [
  (0xA0, .ldy, .immediate, 2), (0xA1, .lda, .indexedIndirect, 6), (0xA2, .ldx, .immediate, 2),
  (0xA4, .ldy, .zeroPage, 3), (0xA5, .lda, .zeroPage, 3), (0xA6, .ldx, .zeroPage, 3),
  (0xA8, .tay, .implied, 2), (0xA9, .lda, .immediate, 2), (0xAA, .tax, .implied, 2),
  (0xAC, .ldy, .absolute, 4), (0xAD, .lda, .absolute, 4), (0xAE, .ldx, .absolute, 4)]

/-- R194, the opcodes 0xB0 to 0xBF. -/
def opTableB : List (Byte × Mnemonic × Mode × Nat) := [
  (0xB0, .bcs, .relative, 2), (0xB1, .lda, .indirectIndexed, 5), (0xB4, .ldy, .zeroPageX, 4),
  (0xB5, .lda, .zeroPageX, 4), (0xB6, .ldx, .zeroPageY, 4), (0xB8, .clv, .implied, 2),
  (0xB9, .lda, .absoluteY, 4), (0xBA, .tsx, .implied, 2), (0xBC, .ldy, .absoluteX, 4),
  (0xBD, .lda, .absoluteX, 4), (0xBE, .ldx, .absoluteY, 4)]

/-- R194, the opcodes 0xC0 to 0xCF. -/
def opTableC : List (Byte × Mnemonic × Mode × Nat) := [
  (0xC0, .cpy, .immediate, 2), (0xC1, .cmp, .indexedIndirect, 6), (0xC4, .cpy, .zeroPage, 3),
  (0xC5, .cmp, .zeroPage, 3), (0xC6, .dec, .zeroPage, 5), (0xC8, .iny, .implied, 2),
  (0xC9, .cmp, .immediate, 2), (0xCA, .dex, .implied, 2), (0xCC, .cpy, .absolute, 4),
  (0xCD, .cmp, .absolute, 4), (0xCE, .dec, .absolute, 6)]

/-- R194, the opcodes 0xD0 to 0xDF. -/
def opTableD : List (Byte × Mnemonic × Mode × Nat) := [
  (0xD0, .bne, .relative, 2), (0xD1, .cmp, .indirectIndexed, 5), (0xD5, .cmp, .zeroPageX, 4),
  (0xD6, .dec, .zeroPageX, 6), (0xD8, .cld, .implied, 2), (0xD9, .cmp, .absoluteY, 4),
  (0xDD, .cmp, .absoluteX, 4), (0xDE, .dec, .absoluteX, 7)]

/-- R194, the opcodes 0xE0 to 0xEF. -/
def opTableE : List (Byte × Mnemonic × Mode × Nat) := [
  (0xE0, .cpx, .immediate, 2), (0xE1, .sbc, .indexedIndirect, 6), (0xE4, .cpx, .zeroPage, 3),
  (0xE5, .sbc, .zeroPage, 3), (0xE6, .inc, .zeroPage, 5), (0xE8, .inx, .implied, 2),
  (0xE9, .sbc, .immediate, 2), (0xEA, .nop, .implied, 2), (0xEC, .cpx, .absolute, 4),
  (0xED, .sbc, .absolute, 4), (0xEE, .inc, .absolute, 6)]

/-- R194, the opcodes 0xF0 to 0xFF. -/
def opTableF : List (Byte × Mnemonic × Mode × Nat) := [
  (0xF0, .beq, .relative, 2), (0xF1, .sbc, .indirectIndexed, 5), (0xF5, .sbc, .zeroPageX, 4),
  (0xF6, .inc, .zeroPageX, 6), (0xF8, .sed, .implied, 2), (0xF9, .sbc, .absoluteY, 4),
  (0xFD, .sbc, .absoluteX, 4), (0xFE, .inc, .absoluteX, 7)]

/-- The opcode table of R80 and R194, written out again from R194's rows: opcode byte, mnemonic, mode, and the cycles without
penalty, the opcode fetch included. -/
def opTable : List (Byte × Mnemonic × Mode × Nat) :=
  opTable0 ++ opTable1 ++ opTable2 ++ opTable3 ++ opTable4 ++ opTable5 ++ opTable6 ++ opTable7 ++
  opTable8 ++ opTable9 ++ opTableA ++ opTableB ++ opTableC ++ opTableD ++ opTableE ++ opTableF

/-- An indexed operand's base address crosses a page (R91, R192). -/
def crossesPage (i : Instr) (s : State) : Bool :=
  match memOperand? i with
  | some (.absX a) => hi a != hi (a + zext16 s.x)
  | some (.absY a) => hi a != hi (a + zext16 s.y)
  | some (.indY b) =>
    let base := word (s.mem.read (zext16 b)) (s.mem.read (zext16 (b + 1)))
    hi base != hi (base + zext16 s.y)
  | _ => false

/-- The penalty column of R194: +1 on a page crossing for class R (R192); +1 for a taken branch and +1 more across a
page (R193). -/
def penalty (i : Instr) (s : State) : Nat :=
  match i.mode, i.operandBytes with
  | .relative, [off] =>
    if branchCond i.mnemonic s.flags then
      (if hi (s.pc + 1 + sext16 off) != hi (s.pc + 1) then 2 else 1)
    else 0
  | _, _ => if classR.contains i.mnemonic && crossesPage i s then 1 else 0

/-- The opcode bytes that R101 lists as empty. -/
def emptyBytes : List Byte := [
  0x02, 0x03, 0x04, 0x07, 0x0B, 0x0C, 0x0F, 0x12, 0x13, 0x14, 0x17, 0x1A, 0x1B, 0x1C, 0x1F,
  0x22, 0x23, 0x27, 0x2B, 0x2F, 0x32, 0x33, 0x34, 0x37, 0x3A, 0x3B, 0x3C, 0x3F, 0x42, 0x43,
  0x44, 0x47, 0x4B, 0x4F, 0x52, 0x53, 0x54, 0x57, 0x5A, 0x5B, 0x5C, 0x5F, 0x62, 0x63, 0x64,
  0x67, 0x6B, 0x6F, 0x72, 0x73, 0x74, 0x77, 0x7A, 0x7B, 0x7C, 0x7F, 0x80, 0x82, 0x83, 0x87,
  0x89, 0x8B, 0x8F, 0x92, 0x93, 0x97, 0x9B, 0x9C, 0x9E, 0x9F, 0xA3, 0xA7, 0xAB, 0xAF, 0xB2,
  0xB3, 0xB7, 0xBB, 0xBF, 0xC2, 0xC3, 0xC7, 0xCB, 0xCF, 0xD2, 0xD3, 0xD4, 0xD7, 0xDA, 0xDB,
  0xDC, 0xDF, 0xE2, 0xE3, 0xE7, 0xEB, 0xEF, 0xF2, 0xF3, 0xF4, 0xF7, 0xFA, 0xFB, 0xFC, 0xFF]

/-- What the spec's reset leaves (70_reset_and_hazards.md R182, R183, R185): everything R185 lists, and no mark, since "Only
`clock`, `diag` and memory carry over" (R184). -/
def resetOf (s : State) : State := { s with
  a := 0, x := 0, y := 0, sp := s.cfg.resetSp, pc := word (s.mem.read 0xFFFC) (s.mem.read 0xFFFD),
  flags := { c := s.cfg.resetCzvn.c, z := s.cfg.resetCzvn.z, i := false, d := false, b := s.cfg.resetB,
             v := s.cfg.resetCzvn.v, n := s.cfg.resetCzvn.n },
  clock := s.clock + 7, ready := true, mark := .running }

/-- Wherever `a` is one of the three bytes the next step decodes (the opcode byte or an operand byte), that byte is `v`. -/
def seenByFetch (t : State) (a : Word) (v : Byte) : Prop :=
  ∀ k : Nat, k < 3 → a = t.pc + BitVec.ofNat 16 k → t.bytesAtPc[k]? = some v

/-- The step fetches the opcode byte of this mnemonic. -/
def fetches (s : State) (mn : Mnemonic) : Prop := ∃ mode, dispatchOf s.cfg (s.mem.read s.pc) = some (mn, mode)

/-- The stack cell a step pushes P to: PHP's, or the third of BRK's. -/
def isPushedStatusCell (s : State) (a : Word) : Prop :=
  (fetches s .php ∧ a = stackAddr s.sp) ∨ (fetches s .brk ∧ a = stackAddr (s.sp - 2))

end Sys2Proof.Says

open Sys2Proof Sys2Proof.Machine Sys2Proof.Says

/-! ## Encoding -/

/-- Decode and encode agree for every well-formed instruction of every configuration, every operand value, and whatever
bytes follow; the encoding is one opcode byte and the mode's operand bytes (30_encoding.md R75, R76, R102). BRK's and NOP's
skipped byte is no operand (DESIGN CHOICE, log entry 11). -/
def Obligations.DecodeOfEncodeIsTheInstruction : Prop :=
  ∀ (cfg : Config) (i : Instr) (rest : List Byte), i.wf cfg = true →
    ∃ bytes, encode cfg i = some bytes ∧ bytes.length = 1 + i.mode.operandCount ∧
      decode cfg (bytes ++ rest) = .instr i rest

/-- What the decoder read is all there: the bytes are an opcode byte of that pair, the instruction's operand bytes, and the
rest (R75, R76, R102). -/
def Obligations.DecodedBytesSpellTheInstruction : Prop :=
  ∀ (cfg : Config) (bytes rest : List Byte) (i : Instr), decode cfg bytes = .instr i rest →
    ∃ op, bytes = op :: (i.operandBytes ++ rest) ∧ dispatchOf cfg op = some (i.mnemonic, i.mode) ∧
      i.operandBytes.length = i.mode.operandCount

/-- A few encodings written out from the opcode tables of files 41 to 49 decode to the instruction they stand for. Every
opcode byte but 0xA9 is the spec's own choice D1 (PRESUMED by the spec, log entry 12). That BRK is the one byte 0x00 with
nothing after it, where R163's table makes it 2 bytes long, is the model's choice (DESIGN CHOICE, log entry 11): the
signature byte is skipped by the instruction, not decoded. -/
def Obligations.SampleEncodingsDecode : Prop :=
  decode Config.default [0xA9, 0x10] = .instr (.ldaImm 0x10) [] ∧
  decode Config.default [0x9D, 0x00, 0x04] = .instr (.staAbsX 0x0400) [] ∧
  decode Config.default [0xB1, 0x20] = .instr (.ldaIndY 0x20) [] ∧
  decode Config.default [0x6C, 0xFF, 0x02] = .instr (.jmpInd 0x02FF) [] ∧
  decode Config.default [0x6A] = .instr .rorAcc [] ∧
  decode Config.default [0xD0, 0xF8] = .instr (.bne 0xF8) [] ∧
  decode Config.default [0x20, 0x00, 0x03] = .instr (.jsr 0x0300) [] ∧
  decode Config.default [0x00] = .instr .brk [] ∧
  decode Config.default [0x02] = .rejected (.unmapped 0x02)

/-- The default opcode map (30_encoding.md R80, R101, 70_reset_and_hazards.md R194; the byte values are the spec's own choice
D1, log entry 12): byte by byte the pairs of the table, written out again here; exactly the 105 bytes of R101 are empty; and
every row of the table but RES has a byte. -/
def Obligations.DefaultMapHasEveryRowAndNoOther : Prop :=
  (∀ (op : Byte) (mn : Mnemonic) (mode : Mode),
    dispatchOf Config.default op = some (mn, mode) ↔ ∃ c, (op, mn, mode, c) ∈ opTable) ∧
  (∀ i : Instr, i.wf Config.default = decide (i.mnemonic ≠ .res)) ∧
  (∀ op : Byte, dispatchOf Config.default op = none ↔ op ∈ emptyBytes)

/-- RES is reached through RES_OPCODE alone (R103, R166): a byte maps to RES exactly when RES_OPCODE is that byte and the
default map leaves it empty. A supplied record that names RES, or that has the RES_OPCODE byte, is the model's reading
(DEDUCED, log entry 8). -/
def Obligations.OnlyResOpcodeReachesRes : Prop :=
  ∀ (cfg : Config) (op : Byte) (mode : Mode),
    dispatchOf cfg op = some (.res, mode) ↔
      (mode = .implied ∧ cfg.resOpcode = some op ∧ dispatchOf Config.default op = none)

/-! ## The step -/

/-- A step runs the decoded instruction: when reset has run, no mark is set, and the bytes at PC decode to `i`, the step is
`exec i` from the state after the opcode fetch, PC + 1 and clock + 1 (R82, R77). -/
def Obligations.StepRunsTheDecodedInstruction : Prop :=
  ∀ (s : State) (i : Instr) (rest : List Byte), s.mark = .running → s.ready = true →
    decode s.cfg [s.mem.read s.pc, s.mem.read (s.pc + 1), s.mem.read (s.pc + 2)] = .instr i rest →
      step s = exec i { s with pc := s.pc + 1, clock := s.clock + 1 }

/-- An unmapped opcode byte is skipped and logged: PC + 1, clock + 1, the record appended, nothing else (R81; the spec's
own choice D17). -/
def Obligations.UnmappedOpcodeIsSkippedAndLogged : Prop :=
  ∀ s : State, s.mark = .running → s.ready = true → dispatchOf s.cfg (s.mem.read s.pc) = none →
    step s = .next { s with
      pc := s.pc + 1, clock := s.clock + 1, diag := s.diag ++ [(s.pc, s.mem.read s.pc)] }

/-- A step before reset faults, before it fetches anything (10_state.md R48, 00_scope.md R19; the spec's own choice D28). -/
def Obligations.StepBeforeResetFaults : Prop :=
  ∀ s : State, s.mark = .running → s.ready = false → step s = .fault .notReset

/-- Outside the two stops of 00_scope.md R19 every step completes, and the step raises no other reason: with reset run and no
mark, the step answers a next state, or it is the decimal refusal of an ADC or SBC with D = 1 under DECIMAL_POLICY = refuse
(60_exceptions.md R167, R173; D25, D28). -/
def Obligations.StepStopsOnlyOnTheDecimalRefusal : Prop :=
  ∀ s : State, s.mark = .running → s.ready = true →
    (∃ t, step s = .next t) ∨
    (step s = .refused .decimalModeUnmodelled ∧ s.flags.d = true ∧ s.cfg.decimalPolicy = .refuse ∧
      ∃ mode, dispatchOf s.cfg (s.mem.read s.pc) = some (.adc, mode) ∨
        dispatchOf s.cfg (s.mem.read s.pc) = some (.sbc, mode))

/-- Every step keeps the invariant: reset has run, no mark, memory in canonical form with every address below 65536, one
record a byte in DISPATCH (R48, R51, R78). -/
def Obligations.EveryStepKeepsTheInvariant : Prop :=
  ∀ s t : State, s.Inv → step s = .next t → t.Inv

/-- The state after reset meets the invariant. -/
def Obligations.ResetStateMeetsTheInvariant : Prop := State.reset.Inv

/-- No step writes the configuration, and nothing clears `ready` (00_scope.md R7 "immutable thereafter", 10_state.md R28,
R48). -/
def Obligations.NoStepWritesConfigurationOrReady : Prop :=
  ∀ s t : State, step s = .next t → t.cfg = s.cfg ∧ t.ready = s.ready ∧ t.mark = s.mark

/-- The clock only increases, and every step costs at least one cycle (00_scope.md R12, 10_state.md R46). -/
def Obligations.EveryStepAdvancesTheClock : Prop :=
  ∀ s t : State, step s = .next t → s.clock < t.clock

/-- The diagnostics log grows by one record on an unmapped byte and is otherwise unchanged (10_state.md R47). -/
def Obligations.OnlyUnmappedBytesAreLogged : Prop :=
  ∀ s t : State, step s = .next t →
    t.diag = if dispatchOf s.cfg (s.mem.read s.pc) = none then s.diag ++ [(s.pc, s.mem.read s.pc)] else s.diag

/-- Every instruction takes the cycles R194 gives its mnemonic and mode, the penalty column included, and RES takes 8, under
every configuration and whatever byte a supplied DISPATCH gives it (R191-R194; the internal ticks are the spec's own choice
D16, log entry 12). First for `exec`, after the opcode fetch's one cycle; then for the step. -/
def Obligations.EveryOpcodeTakesItsTableCycles : Prop :=
  (∀ (i : Instr) (s t : State), exec i s = .next t →
    (∀ (op : Byte) (c : Nat), (op, i.mnemonic, i.mode, c) ∈ opTable → t.clock + 1 = s.clock + c + penalty i s) ∧
    (i.mnemonic = .res → t.clock + 1 = s.clock + 8)) ∧
  (∀ (s t : State) (i : Instr) (rest : List Byte), decode s.cfg s.bytesAtPc = .instr i rest → step s = .next t →
    (∀ (op : Byte) (c : Nat), (op, i.mnemonic, i.mode, c) ∈ opTable →
      t.clock = s.clock + c + penalty i { s with pc := s.pc + 1, clock := s.clock + 1 }) ∧
    (i.mnemonic = .res → t.clock = s.clock + 8))

/-! ## Whole-machine rules -/

/-- A, X, Y and SP are written by the instructions that 10_state.md R29-R32 list, and by no other. -/
def Obligations.OnlyListedInstructionsWriteRegisters : Prop :=
  ∀ (i : Instr) (s t : State), exec i s = .next t →
    (t.a ≠ s.a → i.mnemonic ∈ [.lda, .txa, .tya, .pla, .and, .eor, .ora, .adc, .sbc, .res] ∨
      i.mnemonic ∈ shifts ∧ i.mode = .accumulator) ∧
    (t.x ≠ s.x → i.mnemonic ∈ [.ldx, .tax, .tsx, .inx, .dex, .res]) ∧
    (t.y ≠ s.y → i.mnemonic ∈ [.ldy, .tay, .iny, .dey, .res]) ∧
    (t.sp ≠ s.sp → i.mnemonic ∈ [.txs, .pha, .php, .pla, .plp, .jsr, .rts, .brk, .rti, .res])

/-- Each flag is written by the instructions that 10_state.md R35-R41 list, and by no other. -/
def Obligations.OnlyListedInstructionsWriteFlags : Prop :=
  ∀ (i : Instr) (s t : State), exec i s = .next t →
    (t.flags.c ≠ s.flags.c → i.mnemonic ∈ carryWriters) ∧
    (t.flags.z ≠ s.flags.z → i.mnemonic ∈ zeroAndNegativeWriters) ∧
    (t.flags.i ≠ s.flags.i → i.mnemonic ∈ [.sei, .cli, .brk, .plp, .rti, .res]) ∧
    (t.flags.d ≠ s.flags.d → i.mnemonic ∈ [.sed, .cld, .plp, .rti, .res]) ∧
    (t.flags.b ≠ s.flags.b → i.mnemonic ∈ [.brk, .res]) ∧
    (t.flags.v ≠ s.flags.v → i.mnemonic ∈ [.adc, .sbc, .bit, .clv, .plp, .rti, .res]) ∧
    (t.flags.n ≠ s.flags.n → i.mnemonic ∈ zeroAndNegativeWriters)

/-- Memory is written by class W and RMW instructions with a memory operand and by the pushing instructions alone; every
other form leaves every byte as it was (30_encoding.md R83, R98, R99; 20_memory.md R65). -/
def Obligations.OnlyStoresAndPushesWriteMemory : Prop :=
  ∀ (i : Instr) (s t : State) (a : Word), exec i s = .next t → t.mem.read a ≠ s.mem.read a →
    i.mnemonic ∈ [.pha, .php, .jsr, .brk] ∨ i.mnemonic ∈ classWorRmw ∧ (memOperand? i).isSome = true

/-- With no byte bound to RES, no step clears B: once it is 1 it stays 1 ("With the defaults, B is 1 from reset on, and no
instruction clears it", 10_state.md R39). -/
def Obligations.NoStepClearsTheBreakFlag : Prop :=
  ∀ s t : State, resByte s.cfg = none → s.flags.b = true → step s = .next t → t.flags.b = true

/-- The I flag masks nothing (60_exceptions.md R174): whatever I is, the step goes to the same PC with the same registers,
clock, log and other flags, and the same memory but for bit 2 of the status byte that PHP or BRK pushes. -/
def Obligations.InterruptFlagMasksNothing : Prop :=
  ∀ (s t : State) (v : Bool), step s = .next t →
    ∃ u, step { s with flags := { s.flags with i := v } } = .next u ∧
      u.pc = t.pc ∧ u.a = t.a ∧ u.x = t.x ∧ u.y = t.y ∧ u.sp = t.sp ∧ u.clock = t.clock ∧ u.diag = t.diag ∧
      { u.flags with i := t.flags.i } = t.flags ∧
      ∀ a, u.mem.read a ≠ t.mem.read a →
        isPushedStatusCell s a ∧ u.mem.read a ||| 0x04 = t.mem.read a ||| 0x04

/-- Under the default policy D has no effect on any computation (10_state.md R38): whatever D is, the step goes to the same
PC with the same registers, clock, log and other flags, and the same memory but for bit 3 of the status byte that PHP or BRK
pushes. -/
def Obligations.DecimalFlagChangesNoBinaryComputation : Prop :=
  ∀ (s t : State) (v : Bool), s.cfg.decimalPolicy = .binary → step s = .next t →
    ∃ u, step { s with flags := { s.flags with d := v } } = .next u ∧
      u.pc = t.pc ∧ u.a = t.a ∧ u.x = t.x ∧ u.y = t.y ∧ u.sp = t.sp ∧ u.clock = t.clock ∧ u.diag = t.diag ∧
      { u.flags with d := t.flags.d } = t.flags ∧
      ∀ a, u.mem.read a ≠ t.mem.read a →
        isPushedStatusCell s a ∧ u.mem.read a ||| 0x08 = t.mem.read a ||| 0x08

/-! ## The resolver -/

/-- The zero-page modes give an address in page 0, the index added modulo 256, for every class; one operand byte is fetched,
and the indexed modes take one extra cycle (R87, R88, R89). zero_page_y is a mode of LDX and STX only. -/
def Obligations.ZeroPageModesStayInPageZero : Prop :=
  (∀ (s : State) (b : Byte) (cls : Access),
    s.ea (.zp b) cls = (BitVec.ofNat 16 b.toNat, { s with pc := s.pc + 1, clock := s.clock + 1 }) ∧
    s.ea (.zpX b) cls =
      (BitVec.ofNat 16 ((b.toNat + s.x.toNat) % 256), { s with pc := s.pc + 1, clock := s.clock + 2 }) ∧
    s.ea (.zpY b) cls =
      (BitVec.ofNat 16 ((b.toNat + s.y.toNat) % 256), { s with pc := s.pc + 1, clock := s.clock + 2 })) ∧
  (∀ i : Instr, i.mode = .zeroPageY → i.mnemonic = .ldx ∨ i.mnemonic = .stx)

/-- The absolute modes: the address is the operand word, plus X or Y modulo 65536; class R pays the extra cycle only on a
page crossing, W and RMW always (R90, R91, R92, R93). That RMW always pays is the spec's own reading (R83; D16, log entry
12). -/
def Obligations.AbsoluteModesIndexTheOperandWord : Prop :=
  (∀ (s : State) (a : Word) (cls : Access),
    s.ea (.abs a) cls = (a, { s with pc := s.pc + 2, clock := s.clock + 2 }) ∧
    s.ea (.absX a) cls =
      (BitVec.ofNat 16 ((a.toNat + s.x.toNat) % 65536),
        { s with
          pc := s.pc + 2
          clock := s.clock + 2 +
            (if cls = .read ∧ a.toNat / 256 = (a.toNat + s.x.toNat) % 65536 / 256 then 0 else 1) }) ∧
    s.ea (.absY a) cls =
      (BitVec.ofNat 16 ((a.toNat + s.y.toNat) % 65536),
        { s with
          pc := s.pc + 2
          clock := s.clock + 2 +
            (if cls = .read ∧ a.toNat / 256 = (a.toNat + s.y.toNat) % 65536 / 256 then 0 else 1) })) ∧
  (∀ i : Instr, i.mode = .absoluteY →
    i.mnemonic ∈ [.lda, .ldx, .and, .eor, .ora, .adc, .sbc, .cmp, .sta])

/-- The indirect operand modes: the pointer is read from page 0, its second byte wrapping inside page 0 (R94, R95; the wrap
is the spec's own choice D14); (zp),Y pays its extra cycle as an indexed absolute address does. -/
def Obligations.IndirectModesReadPageZeroPointers : Prop :=
  ∀ (s : State) (b : Byte) (cls : Access),
    let ptr := fun p : Byte =>
      (s.mem.read (BitVec.ofNat 16 ((p.toNat + 1) % 256))).toNat * 256 + (s.mem.read (BitVec.ofNat 16 p.toNat)).toNat
    s.ea (.indX b) cls =
      (BitVec.ofNat 16 (ptr (b + s.x)), { s with pc := s.pc + 1, clock := s.clock + 4 }) ∧
    s.ea (.indY b) cls =
      (BitVec.ofNat 16 ((ptr b + s.y.toNat) % 65536),
        { s with
          pc := s.pc + 1
          clock := s.clock + 3 + (if cls = .read ∧ ptr b / 256 = (ptr b + s.y.toNat) % 65536 / 256 then 0 else 1) })

/-! ## Stack, status byte, ALU -/

/-- The stack cell of SP is 0x0100 + SP (R64). What is pushed is what is pulled, and SP is unchanged net, for bytes and words
and every SP, the wrap included; no other cell changes (20_memory.md R64-R67; the stack discipline is the spec's own choice
D11, D12, log entry 12). -/
def Obligations.PullUndoesPush : Prop :=
  (∀ sp : Byte, (stackAddr sp).toNat = 0x0100 + sp.toNat) ∧
  ∀ (s : State) (v : Byte) (w : Word),
    (∃ m, (s.push v).pull = (v, { s with mem := m, clock := s.clock + 2 }) ∧
      ∀ a, a ≠ stackAddr s.sp → m.read a = s.mem.read a) ∧
    (∃ m, (s.pushWord w).pullWord = (w, { s with mem := m, clock := s.clock + 4 }) ∧
      ∀ a, a ≠ stackAddr s.sp → a ≠ stackAddr (s.sp - 1) → m.read a = s.mem.read a)

/-- The status byte's layout (10_state.md R43, R45; the layout is the spec's own choice D3). -/
def Obligations.PackLaysOutTheStatusByte : Prop :=
  ∀ f : Flags,
    (pack f).getLsbD 7 = f.n ∧ (pack f).getLsbD 6 = f.v ∧ (pack f).getLsbD 5 = true ∧ (pack f).getLsbD 4 = f.b ∧
    (pack f).getLsbD 3 = f.d ∧ (pack f).getLsbD 2 = f.i ∧ (pack f).getLsbD 1 = f.z ∧ (pack f).getLsbD 0 = f.c

/-- Unpacking and packing again: bit 5 reads 1, bit 4 is B, which a pull does not write; every other bit comes back. And a
pull restores what a push saved (R43, R44; D3, D21). -/
def Obligations.StatusByteRoundTrip : Prop :=
  (∀ (p : Byte) (f : Flags), pack (unpack p { f with b := p.getLsbD 4 }) = p ||| 0x20) ∧
  (∀ f g : Flags, unpack (pack f) g = { f with b := g.b } ∧ unpack (pack f ||| 0x10) g = { f with b := g.b })

/-- The adder (44_arithmetic.md R126): the exact sum's low byte and carry; the overflow is R126's formula, which is the spec's
own resolution of the conflict 90_conflicts.md C1 (PRESUMED by the spec, log entry 12). That the formula is signed overflow
of the three-term sum is an inference from it. -/
def Obligations.AdderIsExact : Prop :=
  ∀ (a b : Byte) (cin : Bool),
    (add8 a b cin).r.toNat = (a.toNat + b.toNat + cin.toNat) % 256 ∧
    ((add8 a b cin).cout = true ↔ 255 < a.toNat + b.toNat + cin.toNat) ∧
    ((add8 a b cin).ovf = true ↔
      a.getLsbD 7 = b.getLsbD 7 ∧ (add8 a b cin).r.getLsbD 7 ≠ a.getLsbD 7) ∧
    ((add8 a b cin).ovf = true ↔
      (a.toInt + b.toInt + cin.toNat < -128 ∨ 127 < a.toInt + b.toInt + cin.toNat))

/-- SBC's use of the adder is the document's difference `acc - value - (1 - carry)` in every case: result, carry (no borrow)
and overflow (44_arithmetic.md R128; the spec's own choice D23). -/
def Obligations.ComplementAddIsTheDifference : Prop :=
  ∀ (a v : Byte) (c : Bool),
    let diff : Int := a.toNat - v.toNat - (1 - c.toNat)
    let q := add8 a (v ^^^ 0xFF) c
    (q.r.toNat : Int) = diff % 256 ∧ (q.cout = true ↔ 0 ≤ diff) ∧
    (q.ovf = true ↔ a.getLsbD 7 ≠ v.getLsbD 7 ∧ q.r.getLsbD 7 ≠ a.getLsbD 7) ∧
    (q.ovf = true ↔ (a.toInt - v.toInt - (1 - c.toNat) < -128 ∨ 127 < a.toInt - v.toInt - (1 - c.toNat)))

/-- The comparator writes three flags and no register (44_arithmetic.md R129). -/
def Obligations.CompareWritesThreeFlags : Prop :=
  ∀ (reg v : Byte) (f : Flags),
    compare8 reg v f =
      { f with
        c := decide (v.toNat ≤ reg.toNat)
        z := decide (reg = v)
        n := decide (128 ≤ (256 + reg.toNat - v.toNat) % 256) }

/-! ## Loads, transfers, stores -/

/-- LDA, LDX and LDY, in every mode, complete: the register takes the operand, Z and N follow it, PC passes the operand bytes,
the clock moves, nothing else changes (R106, R107, R108). -/
def Obligations.LoadsTakeTheOperand : Prop :=
  ∀ (i : Instr) (s : State),
    (i.mnemonic = .lda → ∃ o k, operand? i = some o ∧ exec i s = .next { s with
      a := valueOf o s, flags := znOf (valueOf o s) s.flags, pc := pcAfter i s, clock := s.clock + k }) ∧
    (i.mnemonic = .ldx → ∃ o k, operand? i = some o ∧ exec i s = .next { s with
      x := valueOf o s, flags := znOf (valueOf o s) s.flags, pc := pcAfter i s, clock := s.clock + k }) ∧
    (i.mnemonic = .ldy → ∃ o k, operand? i = some o ∧ exec i s = .next { s with
      y := valueOf o s, flags := znOf (valueOf o s) s.flags, pc := pcAfter i s, clock := s.clock + k })

/-- The six transfers complete: one tick, the destination, Z and N from the value moved, except TXS, which sets no flag
(R109-R114; the tick is the spec's own choice D16). -/
def Obligations.TransfersMoveOneRegister : Prop :=
  ∀ s : State,
    exec .tax s = .next { s with x := s.a, flags := znOf s.a s.flags, clock := s.clock + 1 } ∧
    exec .tay s = .next { s with y := s.a, flags := znOf s.a s.flags, clock := s.clock + 1 } ∧
    exec .txa s = .next { s with a := s.x, flags := znOf s.x s.flags, clock := s.clock + 1 } ∧
    exec .tya s = .next { s with a := s.y, flags := znOf s.y s.flags, clock := s.clock + 1 } ∧
    exec .tsx s = .next { s with x := s.sp, flags := znOf s.sp s.flags, clock := s.clock + 1 } ∧
    exec .txs s = .next { s with sp := s.x, clock := s.clock + 1 }

/-- STA, STX and STY, in every mode, complete: the byte at the effective address takes the register; no flag, no register and
no other byte of memory changes (R115, R116, R117). -/
def Obligations.StoresWriteTheRegister : Prop :=
  ∀ (i : Instr) (s : State) (v : Byte),
    (i.mnemonic = .sta ∧ v = s.a ∨ i.mnemonic = .stx ∧ v = s.x ∨ i.mnemonic = .sty ∧ v = s.y) →
    ∃ m k mem, memOperand? i = some m ∧
      exec i s = .next { s with mem := mem, pc := pcAfter i s, clock := s.clock + k } ∧
      ∀ a, mem.read a = if a = (s.ea m .write).1 then v else s.mem.read a

/-- Every store is seen by the next fetch, without any fence (20_memory.md R73, 70_reset_and_hazards.md R189; D31): whichever
byte a store, a read-modify-write or a push writes, where that byte is the next instruction's opcode or operand byte, the
next step decodes the value written. The stack's order is the spec's own choice D11, what BRK pushes D19. -/
def Obligations.StoreIsSeenByTheNextFetch : Prop :=
  ∀ (i : Instr) (s t : State), exec i s = .next t →
    (∀ m, memOperand? i = some m →
      let w := (s.ea m .write).1
      let a := (s.ea m .modify).1
      (i.mnemonic = .sta → seenByFetch t w s.a) ∧
      (i.mnemonic = .stx → seenByFetch t w s.x) ∧
      (i.mnemonic = .sty → seenByFetch t w s.y) ∧
      (i.mnemonic = .inc → seenByFetch t a (s.mem.read a + 1)) ∧
      (i.mnemonic = .dec → seenByFetch t a (s.mem.read a - 1)) ∧
      (i.mnemonic ∈ shifts → seenByFetch t a (BitVec.ofNat 8 (shiftOf i.mnemonic (s.mem.read a) s.flags.c).1))) ∧
    (i = .pha → seenByFetch t (stackAddr s.sp) s.a) ∧
    (i = .php → seenByFetch t (stackAddr s.sp) (pack s.flags)) ∧
    (∀ target, i = .jsr target →
      seenByFetch t (stackAddr s.sp) (hi (s.pc + 1)) ∧ seenByFetch t (stackAddr (s.sp - 1)) (lo (s.pc + 1))) ∧
    (i = .brk →
      let ret := if s.cfg.brkSignature then s.pc + 1 else s.pc
      seenByFetch t (stackAddr s.sp) (hi ret) ∧ seenByFetch t (stackAddr (s.sp - 1)) (lo ret) ∧
      seenByFetch t (stackAddr (s.sp - 2)) (pack s.flags ||| 0x10))

/-! ## Stack instructions -/

/-- PHA and PHP complete: A, or P with bit 5 = 1 and bit 4 = B, goes to the free stack cell and SP goes down by one, wrapping
(R118, R119; D7, D16). -/
def Obligations.PushesWriteTheFreeCell : Prop :=
  ∀ s : State,
    (∃ mem, exec .pha s = .next { s with mem := mem, sp := s.sp - 1, clock := s.clock + 2 } ∧
      ∀ a, mem.read a = if a = stackAddr s.sp then s.a else s.mem.read a) ∧
    (∃ mem, exec .php s = .next { s with mem := mem, sp := s.sp - 1, clock := s.clock + 2 } ∧
      ∀ a, mem.read a = if a = stackAddr s.sp then pack s.flags else s.mem.read a)

/-- PLA and PLP complete: SP goes up by one, wrapping, and the cell there is A with Z and N, or the six flags; B is unchanged
and memory is not written (R120, R121; D16, D21). -/
def Obligations.PullsReadTheCellAboveSp : Prop :=
  ∀ s : State,
    let p := s.mem.read (stackAddr (s.sp + 1))
    exec .pla s = .next { s with a := p, flags := znOf p s.flags, sp := s.sp + 1, clock := s.clock + 3 } ∧
    exec .plp s = .next { s with
      flags := { c := p.getLsbD 0, z := p.getLsbD 1, i := p.getLsbD 2, d := p.getLsbD 3, b := s.flags.b,
                 v := p.getLsbD 6, n := p.getLsbD 7 },
      sp := s.sp + 1, clock := s.clock + 3 }

/-! ## Logical, arithmetic, compare -/

/-- AND, EOR and ORA, in every mode, complete with the bitwise result in A, Z and N from it (R122, R123, R124). -/
def Obligations.LogicalOpsCombineWithA : Prop :=
  ∀ (i : Instr) (s : State),
    (i.mnemonic = .and → ∃ o k, operand? i = some o ∧ exec i s = .next { s with
      a := s.a &&& valueOf o s, flags := znOf (s.a &&& valueOf o s) s.flags, pc := pcAfter i s,
      clock := s.clock + k }) ∧
    (i.mnemonic = .eor → ∃ o k, operand? i = some o ∧ exec i s = .next { s with
      a := s.a ^^^ valueOf o s, flags := znOf (s.a ^^^ valueOf o s) s.flags, pc := pcAfter i s,
      clock := s.clock + k }) ∧
    (i.mnemonic = .ora → ∃ o k, operand? i = some o ∧ exec i s = .next { s with
      a := s.a ||| valueOf o s, flags := znOf (s.a ||| valueOf o s) s.flags, pc := pcAfter i s,
      clock := s.clock + k })

/-- BIT, in both modes, completes: Z from A AND operand, V and N from the operand's bits 6 and 7; A is not written (R125). -/
def Obligations.BitTestsTheOperand : Prop :=
  ∀ (i : Instr) (s : State), i.mnemonic = .bit → ∃ o k, operand? i = some o ∧ exec i s = .next { s with
    flags := { s.flags with
      z := decide (s.a &&& valueOf o s = 0), v := (valueOf o s).getLsbD 6, n := (valueOf o s).getLsbD 7 },
    pc := pcAfter i s, clock := s.clock + k }

/-- ADC and SBC, in every mode, complete when D = 0 or DECIMAL_POLICY is binary: A, C, V, Z and N from the binary sum of A, the
operand (its one's complement for SBC) and the carry before the instruction (R126, R127, R128; D23, D25). -/
def Obligations.AdcAndSbcAddInBinary : Prop :=
  ∀ (i : Instr) (s : State), s.BinaryOk →
    (i.mnemonic = .adc → ∃ o k, operand? i = some o ∧ exec i s = .next { s with
      a := BitVec.ofNat 8 (s.a.toNat + (valueOf o s).toNat + s.flags.c.toNat),
      flags := sumFlags s.a (valueOf o s) s.flags, pc := pcAfter i s, clock := s.clock + k }) ∧
    (i.mnemonic = .sbc → ∃ o k, operand? i = some o ∧ exec i s = .next { s with
      a := BitVec.ofNat 8 (s.a.toNat + (255 - (valueOf o s).toNat) + s.flags.c.toNat),
      flags := sumFlags s.a (~~~ valueOf o s) s.flags, pc := pcAfter i s, clock := s.clock + k })

/-- Under DECIMAL_POLICY = refuse, an ADC or SBC with D = 1 is refused by name, in every mode (R127, R128, R19; D25). -/
def Obligations.AdcAndSbcAreRefusedInDecimalMode : Prop :=
  ∀ (i : Instr) (s : State), s.flags.d = true → s.cfg.decimalPolicy = .refuse →
    i.mnemonic = .adc ∨ i.mnemonic = .sbc → exec i s = .refused .decimalModeUnmodelled

/-- CMP, CPX and CPY, in every mode, complete: C, Z and N of the comparison; no register and no other flag (R130-R132). -/
def Obligations.ComparesWriteOnlyFlags : Prop :=
  ∀ (i : Instr) (s : State) (reg : Byte),
    (i.mnemonic = .cmp ∧ reg = s.a ∨ i.mnemonic = .cpx ∧ reg = s.x ∨ i.mnemonic = .cpy ∧ reg = s.y) →
    ∃ o k, operand? i = some o ∧ exec i s = .next { s with
      flags := compareFlags reg (valueOf o s) s.flags, pc := pcAfter i s, clock := s.clock + k }

/-! ## Increment, decrement, shift -/

/-- INC and DEC, in every mode, complete: the cell at the effective address changes by one modulo 256, Z and N from the new
value; C, V and every other byte are unchanged (R133, R136). -/
def Obligations.IncAndDecChangeOneCell : Prop :=
  ∀ (i : Instr) (s : State), i.mnemonic = .inc ∨ i.mnemonic = .dec →
    ∃ m k mem, memOperand? i = some m ∧
      let a := (s.ea m .modify).1
      let r := if i.mnemonic = .inc then s.mem.read a + 1 else s.mem.read a - 1
      exec i s = .next { s with
        mem := mem, flags := znOf r s.flags, pc := pcAfter i s, clock := s.clock + k } ∧
      ∀ b, mem.read b = if b = a then r else s.mem.read b

/-- INX, INY, DEX and DEY complete: the register changes by one modulo 256, Z and N from the new value (R134, R135, R137, R138;
the tick is the spec's own choice D16). -/
def Obligations.IndexRegistersCountByOne : Prop :=
  ∀ s : State,
    exec .inx s = .next { s with x := s.x + 1, flags := znOf (s.x + 1) s.flags, clock := s.clock + 1 } ∧
    exec .iny s = .next { s with y := s.y + 1, flags := znOf (s.y + 1) s.flags, clock := s.clock + 1 } ∧
    exec .dex s = .next { s with x := s.x - 1, flags := znOf (s.x - 1) s.flags, clock := s.clock + 1 } ∧
    exec .dey s = .next { s with y := s.y - 1, flags := znOf (s.y - 1) s.flags, clock := s.clock + 1 }

/-- The accumulator forms of the shifts complete: A, C, Z and N (R139-R143; the tick is the spec's own choice D16). -/
def Obligations.AccumulatorShiftsMoveOneBit : Prop :=
  ∀ (i : Instr) (s : State), i.mnemonic ∈ shifts → i.mode = .accumulator →
    let q := shiftOf i.mnemonic s.a s.flags.c
    exec i s = .next { s with
      a := BitVec.ofNat 8 q.1, flags := znOf (BitVec.ofNat 8 q.1) { s.flags with c := q.2 },
      clock := s.clock + 1 }

/-- The memory forms of the shifts complete: the cell at the effective address, C, Z and N; A and every other byte are
unchanged (R139-R143). -/
def Obligations.MemoryShiftsMoveOneBit : Prop :=
  ∀ (i : Instr) (s : State), i.mnemonic ∈ shifts → i.mode ≠ .accumulator →
    ∃ m k mem, memOperand? i = some m ∧
      let a := (s.ea m .modify).1
      let q := shiftOf i.mnemonic (s.mem.read a) s.flags.c
      exec i s = .next { s with
        mem := mem, flags := znOf (BitVec.ofNat 8 q.1) { s.flags with c := q.2 }, pc := pcAfter i s,
        clock := s.clock + k } ∧
      ∀ b, mem.read b = if b = a then BitVec.ofNat 8 q.1 else s.mem.read b

/-! ## Control flow -/

/-- Every branch completes: not taken, PC passes the offset byte; taken, PC is that PC plus the signed offset modulo 65536, one
cycle more, and one more when the target's page is another. No flag is written (R144; the conditions are those of
R145-R152). -/
def Obligations.BranchesAddTheSignedOffset : Prop :=
  ∀ (i : Instr) (s : State), i.mode = .relative → ∃ off : Byte, i.operandBytes = [off] ∧
    let taken := branchCond i.mnemonic s.flags
    let target : Word := BitVec.ofInt 16 ((s.pc + 1).toNat + off.toInt)
    exec i s = .next { s with
      pc := if taken then target else s.pc + 1
      clock := s.clock + 1 + (if taken then (if hi target = hi (s.pc + 1) then 1 else 2) else 0) }

/-- JMP completes: PC is the operand word, or the word its pointer names, whose high byte comes from the pointer's own page
when JMP_IND_PAGE_WRAP holds (R153, R96; D15). -/
def Obligations.JumpsSetPc : Prop :=
  ∀ (s : State) (a : Word),
    exec (.jmpAbs a) s = .next { s with pc := a, clock := s.clock + 2 } ∧
    exec (.jmpInd a) s = .next { s with
      pc := word (s.mem.read a)
        (s.mem.read (if s.cfg.jmpIndPageWrap = true ∧ lo a = 0xFF then a - 255 else a + 1)),
      clock := s.clock + 4 }

/-- JSR completes: it pushes the address of its own last byte, high byte first, and jumps (R154; D11, D16, D30). -/
def Obligations.JsrPushesItsLastByteAddress : Prop :=
  ∀ (s : State) (a : Word), ∃ mem,
    exec (.jsr a) s = .next { s with pc := a, sp := s.sp - 2, mem := mem, clock := s.clock + 5 } ∧
    ∀ b, mem.read b =
      if b = stackAddr s.sp then hi (s.pc + 1) else if b = stackAddr (s.sp - 1) then lo (s.pc + 1)
      else s.mem.read b

/-- RTS completes: PC is the pulled word plus 1; no flag and no memory changes (R155; D11, D16). -/
def Obligations.RtsResumesAfterThePulledWord : Prop :=
  ∀ s : State,
    exec .rts s = .next { s with
      pc := word (s.mem.read (stackAddr (s.sp + 1))) (s.mem.read (stackAddr (s.sp + 2))) + 1,
      sp := s.sp + 2, clock := s.clock + 5 }

/-- A JSR and the RTS that finds the stack as JSR left it, SP and the two pushed cells, whatever else ran in between, resume
after the JSR with SP restored, for every SP, the wrap included (48_jump_call.md R154, R155; the stack's order is the spec's
own choice D11). -/
def Obligations.RtsReturnsFromJsr : Prop :=
  ∀ (s t u : State) (a : Word), exec (.jsr a) s = .next t → u.sp = t.sp →
    u.mem.read (stackAddr s.sp) = t.mem.read (stackAddr s.sp) →
    u.mem.read (stackAddr (s.sp - 1)) = t.mem.read (stackAddr (s.sp - 1)) →
      ∃ r, exec .rts u = .next r ∧ r.pc = s.pc + 2 ∧ r.sp = s.sp

/-! ## Flag changes, BRK, RTI, NOP, RES, reset -/

/-- The seven flag changes complete: one flag, one tick, no other effect (R156-R162). -/
def Obligations.FlagChangesWriteOneFlag : Prop :=
  ∀ s : State,
    exec .clc s = .next { s with flags := { s.flags with c := false }, clock := s.clock + 1 } ∧
    exec .cld s = .next { s with flags := { s.flags with d := false }, clock := s.clock + 1 } ∧
    exec .cli s = .next { s with flags := { s.flags with i := false }, clock := s.clock + 1 } ∧
    exec .clv s = .next { s with flags := { s.flags with v := false }, clock := s.clock + 1 } ∧
    exec .sec s = .next { s with flags := { s.flags with c := true }, clock := s.clock + 1 } ∧
    exec .sed s = .next { s with flags := { s.flags with d := true }, clock := s.clock + 1 } ∧
    exec .sei s = .next { s with flags := { s.flags with i := true }, clock := s.clock + 1 }

/-- BRK completes by taking the break trap: the return address (past the signature byte when BRK_SIGNATURE holds), high byte
first, then P with bit 4 set; I and B become 1; PC is the word at 0xFFFE; A, X, Y and the other flags are unchanged
(49_flag_interrupt_misc.md R163, 60_exceptions.md R169; D4, D19, D20). -/
def Obligations.BrkTakesTheBreakTrap : Prop :=
  ∀ s : State,
    let ret := if s.cfg.brkSignature then s.pc + 1 else s.pc
    ∃ mem, exec .brk s = .next { s with
        pc := word (s.mem.read 0xFFFE) (s.mem.read 0xFFFF), sp := s.sp - 3, mem := mem,
        flags := { s.flags with i := true, b := true }, clock := s.clock + 6 } ∧
      ∀ b, mem.read b =
        if b = stackAddr s.sp then hi ret else if b = stackAddr (s.sp - 1) then lo ret
        else if b = stackAddr (s.sp - 2) then pack s.flags ||| 0x10 else s.mem.read b

/-- RTI completes: the six flags from the first pulled byte, B unaffected, then PC, nothing added (R164, 60_exceptions.md
R170; D16, D21). -/
def Obligations.RtiPullsStatusThenPc : Prop :=
  ∀ s : State,
    let p := s.mem.read (stackAddr (s.sp + 1))
    exec .rti s = .next { s with
      flags := { c := p.getLsbD 0, z := p.getLsbD 1, i := p.getLsbD 2, d := p.getLsbD 3, b := s.flags.b,
                 v := p.getLsbD 6, n := p.getLsbD 7 },
      pc := word (s.mem.read (stackAddr (s.sp + 2))) (s.mem.read (stackAddr (s.sp + 3))),
      sp := s.sp + 3, clock := s.clock + 5 }

/-- RTI undoes BRK's entry: from any state that has the stack as BRK left it, SP and the three pushed cells, whatever else ran
in between, PC is BRK's return address, SP is restored, and so are C, Z, I, D, V and N; B stays (60_exceptions.md R169, R170;
the spec's own choices D11 for the stack's order, D19 for the return address, D21 for the bits RTI leaves alone). -/
def Obligations.RtiReturnsFromBrk : Prop :=
  ∀ s t u : State, exec .brk s = .next t → u.sp = t.sp →
    u.mem.read (stackAddr s.sp) = t.mem.read (stackAddr s.sp) →
    u.mem.read (stackAddr (s.sp - 1)) = t.mem.read (stackAddr (s.sp - 1)) →
    u.mem.read (stackAddr (s.sp - 2)) = t.mem.read (stackAddr (s.sp - 2)) →
      ∃ r, exec .rti u = .next r ∧ r.pc = (if s.cfg.brkSignature then s.pc + 1 else s.pc) ∧ r.sp = s.sp ∧
        r.flags = { s.flags with b := u.flags.b }

/-- NOP completes and changes nothing but the clock, and PC when NOP_SKIPS_BYTE holds (R165; D18). -/
def Obligations.NopOnlyPassesTime : Prop :=
  ∀ s : State,
    exec .nop s = .next { s with pc := if s.cfg.nopSkipsByte then s.pc + 1 else s.pc, clock := s.clock + 1 }

/-- RES and the host's reset complete with the reset sequence: the registers and flags at their reset values, PC from the
vector at 0xFFFC, clock + 7, no outcome mark, memory and log unchanged (70_reset_and_hazards.md R182, R183, R184, R185;
49_flag_interrupt_misc.md R166; 00_scope.md R20; D4-D10, D32). -/
def Obligations.ResetSequenceSetsEveryRegister : Prop :=
  ∀ s : State, exec .res s = .next (resetOf s) ∧ apiReset s = resetOf s

/-- Reset determinism: two cores with the same memory and configuration are the same core after reset but for clock and log,
whatever ran before, a fault or refusal included: only clock, log and memory carry over (70_reset_and_hazards.md R184; D8).
The first reset of a constructed core makes it ready with the clock at 7 (R183). -/
def Obligations.ResetForgetsTheRegisters : Prop :=
  (∀ s t : State, s.mem = t.mem → s.cfg = t.cfg →
    { apiReset s with clock := 0, diag := [] } = { apiReset t with clock := 0, diag := [] }) ∧
  (∀ (cfg : Config) (a x y sp : Byte) (pc : Word) (f : Flags) (m : Memory),
    (apiReset (State.constructed cfg a x y sp pc f m)).clock = 7 ∧
    (apiReset (State.constructed cfg a x y sp pc f m)).ready = true)

/-! ## Host interface -/

/-- `execute(n)` runs n steps one after another and stops for good at the first fault or refusal (00_scope.md R21, R18): a step
that completes is run and the rest after it; a step that faults or is refused ends the run, its reason in the mark and the
remaining steps not run; running m + n steps is running m and then n; `execute(0)` changes nothing. That a marked state
stays as it is, and that the frozen state is the one before the stopped step, is the model's choice (DEDUCED, log entry
5). -/
def Obligations.ExecuteRunsStepsUntilAStop : Prop :=
  (∀ s : State, apiExecute 0 s = s) ∧
  (∀ (n : Nat) (s t : State), step s = .next t → apiExecute (n + 1) s = apiExecute n t) ∧
  (∀ (n : Nat) (s : State) (r : Fault), step s = .fault r → apiExecute (n + 1) s = { s with mark := .faulted r }) ∧
  (∀ (n : Nat) (s : State) (r : Refusal), step s = .refused r → apiExecute (n + 1) s = { s with mark := .refused r }) ∧
  (∀ (m n : Nat) (s : State), apiExecute (m + n) s = apiExecute n (apiExecute m s)) ∧
  (∀ (n : Nat) (s : State), s.mark ≠ .running → apiExecute n s = s)

/-- Host memory accesses (00_scope.md R22, R23; D24, D29): a byte read is the cell and a word read the two cells, low byte
first, the second address wrapping; a range read is the cells one after another, wrapping; a byte written is that cell; a
word written is its low byte at the address and its high byte at the next, which a word read gives back. A write moves no
clock and changes no other byte and nothing but memory. -/
def Obligations.HostWordsReadBack : Prop :=
  ∀ (s : State) (a w : Word) (v : Byte),
    apiReadByte s a = s.mem.read a ∧
    (apiReadWord s a).toNat = (s.mem.read (a + 1)).toNat * 256 + (s.mem.read a).toNat ∧
    (∀ n : Nat, (apiReadRange s a n).length = n ∧
      ∀ k : Nat, k < n → (apiReadRange s a n)[k]? = some (s.mem.read (a + BitVec.ofNat 16 k))) ∧
    (∃ mem, apiWriteByte s a v = { s with mem := mem } ∧ ∀ b, mem.read b = if b = a then v else s.mem.read b) ∧
    (∃ mem, apiWriteWord s a w = { s with mem := mem } ∧
      ∀ b, mem.read b = if b = a then lo w else if b = a + 1 then hi w else s.mem.read b) ∧
    apiReadWord (apiWriteWord s a w) a = w

/-- Host register and flag accesses (00_scope.md R24; D28, D29): a read is refused before reset and is that register's or
flag's value after it; a write stores the number truncated to the register's width in that register, and changes nothing
else; a write is read back truncated. That a refused read is `none`, that a value is given as a number and that a flag takes
it modulo 2 is the model's reading (DEDUCED, log entry 13). -/
def Obligations.HostRegistersReadBackTruncated : Prop :=
  ∀ s : State,
    (∀ r, s.ready = false → apiReadReg s r = none) ∧
    (s.ready = true →
      apiReadReg s .a = some s.a.toNat ∧ apiReadReg s .x = some s.x.toNat ∧ apiReadReg s .y = some s.y.toNat ∧
      apiReadReg s .sp = some s.sp.toNat ∧ apiReadReg s .pc = some s.pc.toNat ∧
      apiReadReg s .c = some s.flags.c.toNat ∧ apiReadReg s .z = some s.flags.z.toNat ∧
      apiReadReg s .i = some s.flags.i.toNat ∧ apiReadReg s .d = some s.flags.d.toNat ∧
      apiReadReg s .b = some s.flags.b.toNat ∧ apiReadReg s .v = some s.flags.v.toNat ∧
      apiReadReg s .n = some s.flags.n.toNat) ∧
    (∀ k : Nat,
      apiWriteReg s .a k = { s with a := BitVec.ofNat 8 k } ∧ apiWriteReg s .x k = { s with x := BitVec.ofNat 8 k } ∧
      apiWriteReg s .y k = { s with y := BitVec.ofNat 8 k } ∧ apiWriteReg s .sp k = { s with sp := BitVec.ofNat 8 k } ∧
      apiWriteReg s .pc k = { s with pc := BitVec.ofNat 16 k } ∧
      apiWriteReg s .c k = { s with flags := { s.flags with c := k % 2 == 1 } } ∧
      apiWriteReg s .z k = { s with flags := { s.flags with z := k % 2 == 1 } } ∧
      apiWriteReg s .i k = { s with flags := { s.flags with i := k % 2 == 1 } } ∧
      apiWriteReg s .d k = { s with flags := { s.flags with d := k % 2 == 1 } } ∧
      apiWriteReg s .b k = { s with flags := { s.flags with b := k % 2 == 1 } } ∧
      apiWriteReg s .v k = { s with flags := { s.flags with v := k % 2 == 1 } } ∧
      apiWriteReg s .n k = { s with flags := { s.flags with n := k % 2 == 1 } }) ∧
    (∀ (r : HostReg) (k : Nat), s.ready = true → apiReadReg (apiWriteReg s r k) r =
      some (k % (match r with
        | .a | .x | .y | .sp => 256
        | .pc => 65536
        | .c | .z | .i | .d | .b | .v | .n => 2)))
end

