-- ==== Sys2Proof/Laws/Memory.lean ====
section
/-! SUPPORT. The laws of the memory array: read after write, and every write keeps the canonical form. The first kind
holds of every memory, canonical or not. -/

namespace Sys2Proof.Machine

theorem Memory.readAt_erase (m : Memory) (a b : Nat) :
    (m.erase a).readAt b = if b = a then Memory.unwritten else m.readAt b := by
  induction m with
  | nil => simp [Memory.erase, Memory.readAt]
  | cons e rest ih =>
    obtain ⟨k, v⟩ := e
    by_cases hk : k = a <;> by_cases hb : b = a <;> simp_all [Memory.erase, Memory.readAt]
    intro h
    exact absurd h.symm hb

theorem Memory.readAt_insert (m : Memory) (a b : Nat) (v : Byte) (h : b ≠ a ∨ m.readAt a = Memory.unwritten ∧ ∀ e ∈ m, e.1 ≠ a) :
    (m.insert a v).readAt b = if b = a then v else m.readAt b := by
  induction m with
  | nil =>
    by_cases hb : b = a
    · simp [Memory.insert, Memory.readAt, hb]
    · have hb' : ¬a = b := fun e => hb e.symm
      simp [Memory.insert, Memory.readAt, hb, hb']
  | cons e rest ih =>
    obtain ⟨k, w⟩ := e
    by_cases hb : b = a
    · subst hb
      have hk : ∀ e ∈ (k, w) :: rest, e.1 ≠ b := (h.resolve_left (by simp)).2
      have hkb : k ≠ b := hk (k, w) (by simp)
      have hrest : ∀ e ∈ rest, e.1 ≠ b := fun e he => hk e (by simp [he])
      have hread : Memory.readAt rest b = Memory.unwritten := by
        have := (h.resolve_left (by simp)).1
        simpa [Memory.readAt, hkb] using this
      by_cases hlt : b < k
      · simp [Memory.insert, hlt, Memory.readAt]
      · simp [Memory.insert, hlt, Memory.readAt, hkb, ih (.inr ⟨hread, hrest⟩)]
    · have hb' : ¬a = b := fun e => hb e.symm
      by_cases hlt : a < k
      · simp [Memory.insert, hlt, Memory.readAt, hb, hb']
      · simp [Memory.insert, hlt, Memory.readAt, hb, ih (.inl hb)]

theorem Memory.erase_keys (m : Memory) (a : Nat) : ∀ e ∈ m.erase a, e.1 ≠ a := by
  induction m with
  | nil => simp [Memory.erase]
  | cons e rest ih =>
    obtain ⟨k, v⟩ := e
    by_cases hk : k = a
    · simpa [Memory.erase, hk] using ih
    · simp only [Memory.erase, hk, if_false, List.mem_cons]
      rintro e (rfl | he)
      · exact hk
      · exact ih e he

/-- Read after write, at the same address and at any other. -/
@[simp] theorem Memory.read_write (m : Memory) (a b : Word) (v : Byte) :
    (m.write a v).read b = if b = a then v else m.read b := by
  have hab : b.toNat = a.toNat ↔ b = a := ⟨BitVec.eq_of_toNat_eq, congrArg _⟩
  unfold Memory.write Memory.read
  split
  next hv => simp [Memory.readAt_erase, hab, hv]
  next hv =>
    rw [Memory.readAt_insert]
    · by_cases h : b = a <;> simp [h, Memory.readAt_erase, hab]
    · exact .inr ⟨by simp [Memory.readAt_erase], Memory.erase_keys m a.toNat⟩

theorem Memory.wfFrom_mono {m : Memory} {l k : Nat} (h : l ≤ k) (hm : Memory.wfFrom k m = true) :
    Memory.wfFrom l m = true := by
  cases m with
  | nil => rfl
  | cons e rest =>
    simp only [Memory.wfFrom, Bool.and_eq_true, decide_eq_true_eq] at hm ⊢
    exact ⟨⟨⟨by omega, hm.1.1.2⟩, hm.1.2⟩, hm.2⟩

theorem Memory.wfFrom_erase {m : Memory} {l : Nat} (a : Nat) (hm : Memory.wfFrom l m = true) :
    Memory.wfFrom l (m.erase a) = true := by
  induction m generalizing l with
  | nil => rfl
  | cons e rest ih =>
    obtain ⟨k, v⟩ := e
    simp only [Memory.wfFrom, Bool.and_eq_true, decide_eq_true_eq] at hm
    unfold Memory.erase
    split
    · exact Memory.wfFrom_mono (by omega) (ih hm.2)
    · simp only [Memory.wfFrom, Bool.and_eq_true, decide_eq_true_eq]
      exact ⟨hm.1, ih hm.2⟩

theorem Memory.wfFrom_insert {m : Memory} {l a : Nat} {v : Byte} (hm : Memory.wfFrom l m = true) (hl : l ≤ a)
    (ha : a < 65536) (hv : v ≠ Memory.unwritten) (hk : ∀ e ∈ m, e.1 ≠ a) :
    Memory.wfFrom l (m.insert a v) = true := by
  induction m generalizing l with
  | nil => simp [Memory.insert, Memory.wfFrom, hl, ha, hv]
  | cons e rest ih =>
    obtain ⟨k, w⟩ := e
    have hka : k ≠ a := hk (k, w) (by simp)
    simp only [Memory.wfFrom, Bool.and_eq_true, decide_eq_true_eq] at hm
    unfold Memory.insert
    split
    next hlt =>
      simp only [Memory.wfFrom, Bool.and_eq_true, decide_eq_true_eq]
      exact ⟨⟨⟨hl, ha⟩, by simpa using hv⟩, ⟨⟨by omega, hm.1.1.2⟩, hm.1.2⟩, hm.2⟩
    next hlt =>
      simp only [Memory.wfFrom, Bool.and_eq_true, decide_eq_true_eq]
      exact ⟨hm.1, ih hm.2 (by omega) fun e he => hk e (by simp [he])⟩

/-- Every write keeps the canonical form. -/
theorem Memory.wf_write {m : Memory} (a : Word) (v : Byte) (hm : m.wf = true) : (m.write a v).wf = true := by
  unfold Memory.write
  split
  · exact Memory.wfFrom_erase _ hm
  next hv =>
    exact Memory.wfFrom_insert (Memory.wfFrom_erase _ hm) (Nat.zero_le _) a.isLt hv (Memory.erase_keys m _)

/-- Loading bytes keeps the canonical form. -/
theorem Memory.wf_writeBytes {m : Memory} (a : Word) (bytes : List Byte) (hm : m.wf = true) :
    (Memory.writeBytes m a bytes).wf = true := by
  induction bytes generalizing m a with
  | nil => exact hm
  | cons v rest ih => exact ih _ (Memory.wf_write a v hm)

theorem Memory.wf_reset : State.reset.mem.wf = true := rfl

end Sys2Proof.Machine
end

