-- ==== Sys2Proof/Laws/State.lean ====
section
/-! SUPPORT. One lemma a field for each register write and primitive, true by rfl, so that no later proof unfolds a
record update. -/

namespace Sys2Proof.Machine

@[simp] theorem State.setA_a (s : State) (v : Byte) : (s.setA v).a = v := rfl
@[simp] theorem State.setA_x (s : State) (v : Byte) : (s.setA v).x = s.x := rfl
@[simp] theorem State.setA_y (s : State) (v : Byte) : (s.setA v).y = s.y := rfl
@[simp] theorem State.setA_sp (s : State) (v : Byte) : (s.setA v).sp = s.sp := rfl
@[simp] theorem State.setA_pc (s : State) (v : Byte) : (s.setA v).pc = s.pc := rfl
@[simp] theorem State.setA_flags (s : State) (v : Byte) : (s.setA v).flags = s.flags := rfl
@[simp] theorem State.setA_mem (s : State) (v : Byte) : (s.setA v).mem = s.mem := rfl
@[simp] theorem State.setA_clock (s : State) (v : Byte) : (s.setA v).clock = s.clock := rfl
@[simp] theorem State.setA_diag (s : State) (v : Byte) : (s.setA v).diag = s.diag := rfl
@[simp] theorem State.setA_ready (s : State) (v : Byte) : (s.setA v).ready = s.ready := rfl
@[simp] theorem State.setA_mark (s : State) (v : Byte) : (s.setA v).mark = s.mark := rfl
@[simp] theorem State.setA_cfg (s : State) (v : Byte) : (s.setA v).cfg = s.cfg := rfl

@[simp] theorem State.setX_a (s : State) (v : Byte) : (s.setX v).a = s.a := rfl
@[simp] theorem State.setX_x (s : State) (v : Byte) : (s.setX v).x = v := rfl
@[simp] theorem State.setX_y (s : State) (v : Byte) : (s.setX v).y = s.y := rfl
@[simp] theorem State.setX_sp (s : State) (v : Byte) : (s.setX v).sp = s.sp := rfl
@[simp] theorem State.setX_pc (s : State) (v : Byte) : (s.setX v).pc = s.pc := rfl
@[simp] theorem State.setX_flags (s : State) (v : Byte) : (s.setX v).flags = s.flags := rfl
@[simp] theorem State.setX_mem (s : State) (v : Byte) : (s.setX v).mem = s.mem := rfl
@[simp] theorem State.setX_clock (s : State) (v : Byte) : (s.setX v).clock = s.clock := rfl
@[simp] theorem State.setX_diag (s : State) (v : Byte) : (s.setX v).diag = s.diag := rfl
@[simp] theorem State.setX_ready (s : State) (v : Byte) : (s.setX v).ready = s.ready := rfl
@[simp] theorem State.setX_mark (s : State) (v : Byte) : (s.setX v).mark = s.mark := rfl
@[simp] theorem State.setX_cfg (s : State) (v : Byte) : (s.setX v).cfg = s.cfg := rfl

@[simp] theorem State.setY_a (s : State) (v : Byte) : (s.setY v).a = s.a := rfl
@[simp] theorem State.setY_x (s : State) (v : Byte) : (s.setY v).x = s.x := rfl
@[simp] theorem State.setY_y (s : State) (v : Byte) : (s.setY v).y = v := rfl
@[simp] theorem State.setY_sp (s : State) (v : Byte) : (s.setY v).sp = s.sp := rfl
@[simp] theorem State.setY_pc (s : State) (v : Byte) : (s.setY v).pc = s.pc := rfl
@[simp] theorem State.setY_flags (s : State) (v : Byte) : (s.setY v).flags = s.flags := rfl
@[simp] theorem State.setY_mem (s : State) (v : Byte) : (s.setY v).mem = s.mem := rfl
@[simp] theorem State.setY_clock (s : State) (v : Byte) : (s.setY v).clock = s.clock := rfl
@[simp] theorem State.setY_diag (s : State) (v : Byte) : (s.setY v).diag = s.diag := rfl
@[simp] theorem State.setY_ready (s : State) (v : Byte) : (s.setY v).ready = s.ready := rfl
@[simp] theorem State.setY_mark (s : State) (v : Byte) : (s.setY v).mark = s.mark := rfl
@[simp] theorem State.setY_cfg (s : State) (v : Byte) : (s.setY v).cfg = s.cfg := rfl

@[simp] theorem State.setSp_a (s : State) (v : Byte) : (s.setSp v).a = s.a := rfl
@[simp] theorem State.setSp_x (s : State) (v : Byte) : (s.setSp v).x = s.x := rfl
@[simp] theorem State.setSp_y (s : State) (v : Byte) : (s.setSp v).y = s.y := rfl
@[simp] theorem State.setSp_sp (s : State) (v : Byte) : (s.setSp v).sp = v := rfl
@[simp] theorem State.setSp_pc (s : State) (v : Byte) : (s.setSp v).pc = s.pc := rfl
@[simp] theorem State.setSp_flags (s : State) (v : Byte) : (s.setSp v).flags = s.flags := rfl
@[simp] theorem State.setSp_mem (s : State) (v : Byte) : (s.setSp v).mem = s.mem := rfl
@[simp] theorem State.setSp_clock (s : State) (v : Byte) : (s.setSp v).clock = s.clock := rfl
@[simp] theorem State.setSp_diag (s : State) (v : Byte) : (s.setSp v).diag = s.diag := rfl
@[simp] theorem State.setSp_ready (s : State) (v : Byte) : (s.setSp v).ready = s.ready := rfl
@[simp] theorem State.setSp_mark (s : State) (v : Byte) : (s.setSp v).mark = s.mark := rfl
@[simp] theorem State.setSp_cfg (s : State) (v : Byte) : (s.setSp v).cfg = s.cfg := rfl

@[simp] theorem State.setPc_a (s : State) (w : Word) : (s.setPc w).a = s.a := rfl
@[simp] theorem State.setPc_x (s : State) (w : Word) : (s.setPc w).x = s.x := rfl
@[simp] theorem State.setPc_y (s : State) (w : Word) : (s.setPc w).y = s.y := rfl
@[simp] theorem State.setPc_sp (s : State) (w : Word) : (s.setPc w).sp = s.sp := rfl
@[simp] theorem State.setPc_pc (s : State) (w : Word) : (s.setPc w).pc = w := rfl
@[simp] theorem State.setPc_flags (s : State) (w : Word) : (s.setPc w).flags = s.flags := rfl
@[simp] theorem State.setPc_mem (s : State) (w : Word) : (s.setPc w).mem = s.mem := rfl
@[simp] theorem State.setPc_clock (s : State) (w : Word) : (s.setPc w).clock = s.clock := rfl
@[simp] theorem State.setPc_diag (s : State) (w : Word) : (s.setPc w).diag = s.diag := rfl
@[simp] theorem State.setPc_ready (s : State) (w : Word) : (s.setPc w).ready = s.ready := rfl
@[simp] theorem State.setPc_mark (s : State) (w : Word) : (s.setPc w).mark = s.mark := rfl
@[simp] theorem State.setPc_cfg (s : State) (w : Word) : (s.setPc w).cfg = s.cfg := rfl

@[simp] theorem State.setFlags_a (s : State) (f : Flags) : (s.setFlags f).a = s.a := rfl
@[simp] theorem State.setFlags_x (s : State) (f : Flags) : (s.setFlags f).x = s.x := rfl
@[simp] theorem State.setFlags_y (s : State) (f : Flags) : (s.setFlags f).y = s.y := rfl
@[simp] theorem State.setFlags_sp (s : State) (f : Flags) : (s.setFlags f).sp = s.sp := rfl
@[simp] theorem State.setFlags_pc (s : State) (f : Flags) : (s.setFlags f).pc = s.pc := rfl
@[simp] theorem State.setFlags_flags (s : State) (f : Flags) : (s.setFlags f).flags = f := rfl
@[simp] theorem State.setFlags_mem (s : State) (f : Flags) : (s.setFlags f).mem = s.mem := rfl
@[simp] theorem State.setFlags_clock (s : State) (f : Flags) : (s.setFlags f).clock = s.clock := rfl
@[simp] theorem State.setFlags_diag (s : State) (f : Flags) : (s.setFlags f).diag = s.diag := rfl
@[simp] theorem State.setFlags_ready (s : State) (f : Flags) : (s.setFlags f).ready = s.ready := rfl
@[simp] theorem State.setFlags_mark (s : State) (f : Flags) : (s.setFlags f).mark = s.mark := rfl
@[simp] theorem State.setFlags_cfg (s : State) (f : Flags) : (s.setFlags f).cfg = s.cfg := rfl

@[simp] theorem State.tick_a (s : State) (n : Nat) : (s.tick n).a = s.a := rfl
@[simp] theorem State.tick_x (s : State) (n : Nat) : (s.tick n).x = s.x := rfl
@[simp] theorem State.tick_y (s : State) (n : Nat) : (s.tick n).y = s.y := rfl
@[simp] theorem State.tick_sp (s : State) (n : Nat) : (s.tick n).sp = s.sp := rfl
@[simp] theorem State.tick_pc (s : State) (n : Nat) : (s.tick n).pc = s.pc := rfl
@[simp] theorem State.tick_flags (s : State) (n : Nat) : (s.tick n).flags = s.flags := rfl
@[simp] theorem State.tick_mem (s : State) (n : Nat) : (s.tick n).mem = s.mem := rfl
@[simp] theorem State.tick_clock (s : State) (n : Nat) : (s.tick n).clock = s.clock + n := rfl
@[simp] theorem State.tick_diag (s : State) (n : Nat) : (s.tick n).diag = s.diag := rfl
@[simp] theorem State.tick_ready (s : State) (n : Nat) : (s.tick n).ready = s.ready := rfl
@[simp] theorem State.tick_mark (s : State) (n : Nat) : (s.tick n).mark = s.mark := rfl
@[simp] theorem State.tick_cfg (s : State) (n : Nat) : (s.tick n).cfg = s.cfg := rfl

@[simp] theorem State.memRead_value (s : State) (a : Word) : (s.memRead a).1 = s.mem.read a := rfl
@[simp] theorem State.memRead_state (s : State) (a : Word) : (s.memRead a).2 = s.tick 1 := rfl

@[simp] theorem State.memWrite_a (s : State) (a : Word) (v : Byte) : (s.memWrite a v).a = s.a := rfl
@[simp] theorem State.memWrite_x (s : State) (a : Word) (v : Byte) : (s.memWrite a v).x = s.x := rfl
@[simp] theorem State.memWrite_y (s : State) (a : Word) (v : Byte) : (s.memWrite a v).y = s.y := rfl
@[simp] theorem State.memWrite_sp (s : State) (a : Word) (v : Byte) : (s.memWrite a v).sp = s.sp := rfl
@[simp] theorem State.memWrite_pc (s : State) (a : Word) (v : Byte) : (s.memWrite a v).pc = s.pc := rfl
@[simp] theorem State.memWrite_flags (s : State) (a : Word) (v : Byte) : (s.memWrite a v).flags = s.flags := rfl
@[simp] theorem State.memWrite_mem (s : State) (a : Word) (v : Byte) : (s.memWrite a v).mem = s.mem.write a v := rfl
@[simp] theorem State.memWrite_clock (s : State) (a : Word) (v : Byte) : (s.memWrite a v).clock = s.clock + 1 := rfl
@[simp] theorem State.memWrite_diag (s : State) (a : Word) (v : Byte) : (s.memWrite a v).diag = s.diag := rfl
@[simp] theorem State.memWrite_ready (s : State) (a : Word) (v : Byte) : (s.memWrite a v).ready = s.ready := rfl
@[simp] theorem State.memWrite_mark (s : State) (a : Word) (v : Byte) : (s.memWrite a v).mark = s.mark := rfl
@[simp] theorem State.memWrite_cfg (s : State) (a : Word) (v : Byte) : (s.memWrite a v).cfg = s.cfg := rfl

@[simp] theorem State.fetchByte_value (s : State) : s.fetchByte.1 = s.mem.read s.pc := rfl
@[simp] theorem State.fetchByte_state (s : State) : s.fetchByte.2 = s.takeByte := rfl

@[simp] theorem State.takeByte_a (s : State) : s.takeByte.a = s.a := rfl
@[simp] theorem State.takeByte_x (s : State) : s.takeByte.x = s.x := rfl
@[simp] theorem State.takeByte_y (s : State) : s.takeByte.y = s.y := rfl
@[simp] theorem State.takeByte_sp (s : State) : s.takeByte.sp = s.sp := rfl
@[simp] theorem State.takeByte_pc (s : State) : s.takeByte.pc = s.pc + 1 := rfl
@[simp] theorem State.takeByte_flags (s : State) : s.takeByte.flags = s.flags := rfl
@[simp] theorem State.takeByte_mem (s : State) : s.takeByte.mem = s.mem := rfl
@[simp] theorem State.takeByte_clock (s : State) : s.takeByte.clock = s.clock + 1 := rfl
@[simp] theorem State.takeByte_diag (s : State) : s.takeByte.diag = s.diag := rfl
@[simp] theorem State.takeByte_ready (s : State) : s.takeByte.ready = s.ready := rfl
@[simp] theorem State.takeByte_mark (s : State) : s.takeByte.mark = s.mark := rfl
@[simp] theorem State.takeByte_cfg (s : State) : s.takeByte.cfg = s.cfg := rfl

@[simp] theorem State.logUnmapped_a (s : State) (a : Word) (op : Byte) : (s.logUnmapped a op).a = s.a := rfl
@[simp] theorem State.logUnmapped_x (s : State) (a : Word) (op : Byte) : (s.logUnmapped a op).x = s.x := rfl
@[simp] theorem State.logUnmapped_y (s : State) (a : Word) (op : Byte) : (s.logUnmapped a op).y = s.y := rfl
@[simp] theorem State.logUnmapped_sp (s : State) (a : Word) (op : Byte) : (s.logUnmapped a op).sp = s.sp := rfl
@[simp] theorem State.logUnmapped_pc (s : State) (a : Word) (op : Byte) : (s.logUnmapped a op).pc = s.pc := rfl
@[simp] theorem State.logUnmapped_flags (s : State) (a : Word) (op : Byte) : (s.logUnmapped a op).flags = s.flags := rfl
@[simp] theorem State.logUnmapped_mem (s : State) (a : Word) (op : Byte) : (s.logUnmapped a op).mem = s.mem := rfl
@[simp] theorem State.logUnmapped_clock (s : State) (a : Word) (op : Byte) : (s.logUnmapped a op).clock = s.clock := rfl
@[simp] theorem State.logUnmapped_diag (s : State) (a : Word) (op : Byte) : (s.logUnmapped a op).diag = s.diag ++ [(a, op)] := rfl
@[simp] theorem State.logUnmapped_ready (s : State) (a : Word) (op : Byte) : (s.logUnmapped a op).ready = s.ready := rfl
@[simp] theorem State.logUnmapped_mark (s : State) (a : Word) (op : Byte) : (s.logUnmapped a op).mark = s.mark := rfl
@[simp] theorem State.logUnmapped_cfg (s : State) (a : Word) (op : Byte) : (s.logUnmapped a op).cfg = s.cfg := rfl

end Sys2Proof.Machine
end

