-- ==== Sys2Proof/Laws/Ops.lean ====
section
/-! SUPPORT. One lemma for each shared operation of Machine/Ops.lean: everything it does, said once. -/

namespace Sys2Proof.Machine

theorem State.takeByte_eq (s : State) : s.takeByte = { s with pc := s.pc + 1, clock := s.clock + 1 } := rfl

theorem State.takeWord_eq (s : State) : s.takeWord = { s with pc := s.pc + 2, clock := s.clock + 2 } := by
  have h : s.pc + 1 + 1 = s.pc + 2 := BitVec.add_assoc ..
  rw [← h]
  rfl

theorem State.push_eq (s : State) (v : Byte) :
    s.push v = { s with mem := s.mem.write (stackAddr s.sp) v, sp := s.sp - 1, clock := s.clock + 1 } := rfl

theorem State.pull_eq (s : State) :
    s.pull = (s.mem.read (stackAddr (s.sp + 1)), { s with sp := s.sp + 1, clock := s.clock + 1 }) := rfl

theorem State.pushWord_eq (s : State) (w : Word) :
    s.pushWord w =
      { s with
        mem := (s.mem.write (stackAddr s.sp) (hi w)).write (stackAddr (s.sp - 1)) (lo w)
        sp := s.sp - 1 - 1
        clock := s.clock + 1 + 1 } := rfl

theorem State.pullWord_eq (s : State) :
    s.pullWord =
      (word (s.mem.read (stackAddr (s.sp + 1))) (s.mem.read (stackAddr (s.sp + 1 + 1))),
        { s with sp := s.sp + 1 + 1, clock := s.clock + 1 + 1 }) := rfl

theorem State.loadVector_eq (s : State) (a : Word) :
    s.loadVector a = { s with pc := word (s.mem.read a) (s.mem.read (a + 1)), clock := s.clock + 1 + 1 } := rfl

/-- The memory the trap entry leaves: PC and P below the old SP. -/
def breakFrame (s : State) : Memory :=
  ((s.mem.write (stackAddr s.sp) (hi s.pc)).write (stackAddr (s.sp - 1)) (lo s.pc)).write
    (stackAddr (s.sp - 1 - 1)) (pack s.flags ||| 0x10)

theorem State.enterBreak_eq (s : State) :
    s.enterBreak =
      { s with
        mem := breakFrame s
        sp := s.sp - 1 - 1 - 1
        flags := { s.flags with i := true, b := true }
        pc := word ((breakFrame s).read breakVector) ((breakFrame s).read (breakVector + 1))
        clock := s.clock + 1 + 1 + 1 + 1 + 1 } := by
  simp only [State.enterBreak, State.pushWord_eq, State.push_eq, State.loadVector_eq, State.setFlags, breakFrame]

theorem State.returnFromBreak_eq (s : State) :
    s.returnFromBreak =
      { s with
        sp := s.sp + 1 + 1 + 1
        flags := unpack (s.mem.read (stackAddr (s.sp + 1))) s.flags
        pc := word (s.mem.read (stackAddr (s.sp + 1 + 1))) (s.mem.read (stackAddr (s.sp + 1 + 1 + 1)))
        clock := s.clock + 1 + 1 + 1 } := by
  simp only [State.returnFromBreak, State.pull_eq, State.pullWord_eq, State.setFlags, State.setPc]

theorem State.resetSequence_eq (s : State) :
    s.resetSequence =
      { s with
        a := 0x00
        x := 0x00
        y := 0x00
        sp := s.cfg.resetSp
        pc := word (s.mem.read resetVector) (s.mem.read (resetVector + 1))
        flags :=
          { c := s.cfg.resetCzvn.c, z := s.cfg.resetCzvn.z, i := false, d := false, b := s.cfg.resetB
            v := s.cfg.resetCzvn.v, n := s.cfg.resetCzvn.n }
        clock := s.clock + 1 + 1 + 5
        ready := true
        mark := .running } := by
  simp only [State.resetSequence, State.loadVector_eq, State.setFlags, State.tick]

/-- `State.reset` is what the reset sequence makes of any core just constructed with the default configuration and
nothing listed in memory, whatever its registers held. -/
theorem reset_eq_resetSequence (a x y sp : Byte) (pc : Word) (f : Flags) :
    (State.constructed Config.default a x y sp pc f []).resetSequence = State.reset := by
  simp only [State.resetSequence_eq, State.constructed, State.reset, Memory.read, Memory.readAt]
  rfl

end Sys2Proof.Machine
end

