-- ==== Sys2Proof/Laws/Operands.lean ====
section
/-! SUPPORT. The resolver, said once: which address each mode gives, and that resolving moves PC past the operand bytes
and the clock by the mode's cycles, and nothing else. -/

namespace Sys2Proof.Machine

/-- How many operand bytes a memory operand has (R75). -/
def MemOperand.bytes : MemOperand → Nat
  | .zp _ | .zpX _ | .zpY _ | .indX _ | .indY _ => 1
  | .abs _ | .absX _ | .absY _ => 2

/-- The 16-bit pointer in zero page at `p`. -/
def Memory.zpWord (m : Memory) (p : Byte) : Word := word (m.read (zext16 p)) (m.read (zext16 (p + 1)))

/-- The address of a memory operand; the access class does not change it (R87-R95). -/
def MemOperand.addr (m : MemOperand) (s : State) : Word :=
  match m with
  | .zp b => zext16 b
  | .zpX b => zext16 (b + s.x)
  | .zpY b => zext16 (b + s.y)
  | .abs a => a
  | .absX a => a + zext16 s.x
  | .absY a => a + zext16 s.y
  | .indX b => s.mem.zpWord (b + s.x)
  | .indY b => s.mem.zpWord b + zext16 s.y

/-- The page-crossing cycle of an indexed mode (R92). -/
def indexCycle (base : Word) (index : Byte) : Access → Nat
  | .read => if crossed base (base + zext16 index) then 1 else 0
  | .write | .modify => 1

/-- The cycles `EA(mode, class)` takes (R87-R95). -/
def MemOperand.cycles (m : MemOperand) (cls : Access) (s : State) : Nat :=
  match m with
  | .zp _ => 1
  | .zpX _ | .zpY _ => 2
  | .abs _ => 2
  | .absX a => 2 + indexCycle a s.x cls
  | .absY a => 2 + indexCycle a s.y cls
  | .indX _ => 4
  | .indY b => 3 + indexCycle (s.mem.zpWord b) s.y cls

theorem State.indexed_eq (s : State) (base : Word) (index : Byte) (cls : Access) :
    s.indexed base index cls = (base + zext16 index, s.tick (indexCycle base index cls)) := by
  cases cls
  · simp only [State.indexed, indexCycle]
    split <;> simp_all [State.tick]
  · rfl
  · rfl

theorem State.ea_eq (s : State) (m : MemOperand) (cls : Access) :
    s.ea m cls =
      (m.addr s, { s with pc := s.pc + BitVec.ofNat 16 m.bytes, clock := s.clock + m.cycles cls s }) := by
  cases m
  all_goals
    simp only [State.ea, State.indexed_eq, State.zpPointer, State.memRead, State.takeWord_eq, State.takeByte_eq,
      State.tick, MemOperand.addr, MemOperand.bytes, MemOperand.cycles, Memory.zpWord, BitVec.ofNat_eq_ofNat,
      Nat.add_assoc]
  simp only [← Nat.add_assoc]

/-- An instruction's class R operand: its value, and the state after it is read. -/
def Operand.value (o : Operand) (s : State) : Byte :=
  match o with
  | .imm v => v
  | .mem m => s.mem.read (m.addr s)

def Operand.bytes : Operand → Nat
  | .imm _ => 1
  | .mem m => m.bytes

def Operand.cycles (o : Operand) (s : State) : Nat :=
  match o with
  | .imm _ => 1
  | .mem m => m.cycles .read s + 1

theorem State.readOperand_eq (s : State) (o : Operand) :
    s.readOperand o =
      (o.value s, { s with pc := s.pc + BitVec.ofNat 16 o.bytes, clock := s.clock + o.cycles s }) := by
  cases o with
  | imm v => rfl
  | mem m => simp [State.readOperand, State.ea_eq, State.memRead, State.tick, Operand.value, Operand.bytes,
      Operand.cycles, Nat.add_assoc]

theorem State.store_eq (s : State) (m : MemOperand) (v : Byte) :
    s.store m v =
      { s with
        pc := s.pc + BitVec.ofNat 16 m.bytes
        mem := s.mem.write (m.addr s) v
        clock := s.clock + (m.cycles .write s + 1) } := by
  simp [State.store, State.ea_eq, State.memWrite, Nat.add_assoc]

theorem State.modify_eq (s : State) (m : MemOperand) (f : Byte → Byte) :
    s.modify m f =
      (s.mem.read (m.addr s), f (s.mem.read (m.addr s)),
        { s with
          pc := s.pc + BitVec.ofNat 16 m.bytes
          mem := s.mem.write (m.addr s) (f (s.mem.read (m.addr s)))
          clock := s.clock + (m.cycles .modify s + 3) }) := by
  simp [State.modify, State.ea_eq, State.memRead, State.memWrite, State.tick, Nat.add_assoc]

theorem State.applyShift_acc (s : State) (f : Byte → Bool → ShiftResult) :
    s.applyShift .acc f =
      ((f s.a s.flags.c).r,
        { s with
          a := (f s.a s.flags.c).r
          flags := { s.flags with c := (f s.a s.flags.c).cout }
          clock := s.clock + 1 }) := rfl

theorem State.applyShift_mem (s : State) (m : MemOperand) (f : Byte → Bool → ShiftResult) :
    s.applyShift (.mem m) f =
      ((f (s.mem.read (m.addr s)) s.flags.c).r,
        { s with
          pc := s.pc + BitVec.ofNat 16 m.bytes
          mem := s.mem.write (m.addr s) (f (s.mem.read (m.addr s)) s.flags.c).r
          flags := { s.flags with c := (f (s.mem.read (m.addr s)) s.flags.c).cout }
          clock := s.clock + (m.cycles .modify s + 3) }) := by
  simp [State.applyShift, State.modify_eq, State.setFlags]

theorem State.branch_eq (s : State) (cond : Bool) (off : Byte) :
    s.branch cond off =
      { s with
        pc := if cond then s.pc + 1 + sext16 off else s.pc + 1
        clock := s.clock + 1 +
          (if cond then 1 + (if hi (s.pc + 1 + sext16 off) != hi (s.pc + 1) then 1 else 0) else 0) } := by
  cases cond
  · rfl
  · by_cases h : (hi (s.pc + 1 + sext16 off) != hi (s.pc + 1)) = true <;>
      simp only [State.branch, State.takeByte_eq, State.tick, State.setPc, h, if_true, if_false, Bool.false_eq_true,
        Nat.add_assoc]

theorem State.indirectTarget_eq (s : State) (p : Word) :
    s.indirectTarget p =
      (word (s.mem.read p) (s.mem.read (indirectHighAddr s.cfg.jmpIndPageWrap p)),
        { s with pc := s.pc + 2, clock := s.clock + 2 + 1 + 1 }) := by
  simp only [State.indirectTarget, State.takeWord_eq, State.memRead, State.tick]

end Sys2Proof.Machine
end

