-- ==== Sys2Proof/Laws/PerInstr.lean ====
section
/-! SUPPORT. For all instructions, as syntax: taking an instruction apart into its pair and operand bytes and putting it
together again loses nothing. One lemma a constructor of Instr. -/

namespace Sys2Proof.Laws

theorem word_lo_hi (w : Word) : word (lo w) (hi w) = w := by
  apply BitVec.eq_of_toNat_eq
  have h := w.isLt
  simp only [word, lo, hi, BitVec.toNat_ofNat]
  omega

@[simp] theorem lo_word (l h : Byte) : lo (word l h) = l := by
  apply BitVec.eq_of_toNat_eq
  have h1 := l.isLt
  have h2 := h.isLt
  simp only [word, lo, BitVec.toNat_ofNat]
  omega

@[simp] theorem hi_word (l h : Byte) : hi (word l h) = h := by
  apply BitVec.eq_of_toNat_eq
  have h1 := l.isLt
  have h2 := h.isLt
  simp only [word, hi, BitVec.toNat_ofNat]
  omega

/-- The pair and the operand bytes of `i` are the ones its mode says (R75), and they give `i` back. -/
def PartsRoundTrip.Statement (i : Instr) : Prop :=
  i.operandBytes.length = i.mode.operandCount ∧
    Instr.ofParts i.mnemonic i.mode (i.operandBytes.getD 0 0) (i.operandBytes.getD 1 0) = some i

theorem PartsRoundTrip.ldaImm (v : Byte) : PartsRoundTrip.Statement (.ldaImm v) := ⟨rfl, rfl⟩
theorem PartsRoundTrip.ldaZp (b : Byte) : PartsRoundTrip.Statement (.ldaZp b) := ⟨rfl, rfl⟩
theorem PartsRoundTrip.ldaZpX (b : Byte) : PartsRoundTrip.Statement (.ldaZpX b) := ⟨rfl, rfl⟩
theorem PartsRoundTrip.ldaAbs (a : Word) : PartsRoundTrip.Statement (.ldaAbs a) :=
  ⟨rfl, congrArg (fun w => some (Instr.ldaAbs w)) (word_lo_hi a)⟩
theorem PartsRoundTrip.ldaAbsX (a : Word) : PartsRoundTrip.Statement (.ldaAbsX a) :=
  ⟨rfl, congrArg (fun w => some (Instr.ldaAbsX w)) (word_lo_hi a)⟩
theorem PartsRoundTrip.ldaAbsY (a : Word) : PartsRoundTrip.Statement (.ldaAbsY a) :=
  ⟨rfl, congrArg (fun w => some (Instr.ldaAbsY w)) (word_lo_hi a)⟩
theorem PartsRoundTrip.ldaIndX (b : Byte) : PartsRoundTrip.Statement (.ldaIndX b) := ⟨rfl, rfl⟩
theorem PartsRoundTrip.ldaIndY (b : Byte) : PartsRoundTrip.Statement (.ldaIndY b) := ⟨rfl, rfl⟩
theorem PartsRoundTrip.ldxImm (v : Byte) : PartsRoundTrip.Statement (.ldxImm v) := ⟨rfl, rfl⟩
theorem PartsRoundTrip.ldxZp (b : Byte) : PartsRoundTrip.Statement (.ldxZp b) := ⟨rfl, rfl⟩
theorem PartsRoundTrip.ldxZpY (b : Byte) : PartsRoundTrip.Statement (.ldxZpY b) := ⟨rfl, rfl⟩
theorem PartsRoundTrip.ldxAbs (a : Word) : PartsRoundTrip.Statement (.ldxAbs a) :=
  ⟨rfl, congrArg (fun w => some (Instr.ldxAbs w)) (word_lo_hi a)⟩
theorem PartsRoundTrip.ldxAbsY (a : Word) : PartsRoundTrip.Statement (.ldxAbsY a) :=
  ⟨rfl, congrArg (fun w => some (Instr.ldxAbsY w)) (word_lo_hi a)⟩
theorem PartsRoundTrip.ldyImm (v : Byte) : PartsRoundTrip.Statement (.ldyImm v) := ⟨rfl, rfl⟩
theorem PartsRoundTrip.ldyZp (b : Byte) : PartsRoundTrip.Statement (.ldyZp b) := ⟨rfl, rfl⟩
theorem PartsRoundTrip.ldyZpX (b : Byte) : PartsRoundTrip.Statement (.ldyZpX b) := ⟨rfl, rfl⟩
theorem PartsRoundTrip.ldyAbs (a : Word) : PartsRoundTrip.Statement (.ldyAbs a) :=
  ⟨rfl, congrArg (fun w => some (Instr.ldyAbs w)) (word_lo_hi a)⟩
theorem PartsRoundTrip.ldyAbsX (a : Word) : PartsRoundTrip.Statement (.ldyAbsX a) :=
  ⟨rfl, congrArg (fun w => some (Instr.ldyAbsX w)) (word_lo_hi a)⟩
theorem PartsRoundTrip.tax : PartsRoundTrip.Statement .tax := ⟨rfl, rfl⟩
theorem PartsRoundTrip.tay : PartsRoundTrip.Statement .tay := ⟨rfl, rfl⟩
theorem PartsRoundTrip.txa : PartsRoundTrip.Statement .txa := ⟨rfl, rfl⟩
theorem PartsRoundTrip.tya : PartsRoundTrip.Statement .tya := ⟨rfl, rfl⟩
theorem PartsRoundTrip.tsx : PartsRoundTrip.Statement .tsx := ⟨rfl, rfl⟩
theorem PartsRoundTrip.txs : PartsRoundTrip.Statement .txs := ⟨rfl, rfl⟩
theorem PartsRoundTrip.staZp (b : Byte) : PartsRoundTrip.Statement (.staZp b) := ⟨rfl, rfl⟩
theorem PartsRoundTrip.staZpX (b : Byte) : PartsRoundTrip.Statement (.staZpX b) := ⟨rfl, rfl⟩
theorem PartsRoundTrip.staAbs (a : Word) : PartsRoundTrip.Statement (.staAbs a) :=
  ⟨rfl, congrArg (fun w => some (Instr.staAbs w)) (word_lo_hi a)⟩
theorem PartsRoundTrip.staAbsX (a : Word) : PartsRoundTrip.Statement (.staAbsX a) :=
  ⟨rfl, congrArg (fun w => some (Instr.staAbsX w)) (word_lo_hi a)⟩
theorem PartsRoundTrip.staAbsY (a : Word) : PartsRoundTrip.Statement (.staAbsY a) :=
  ⟨rfl, congrArg (fun w => some (Instr.staAbsY w)) (word_lo_hi a)⟩
theorem PartsRoundTrip.staIndX (b : Byte) : PartsRoundTrip.Statement (.staIndX b) := ⟨rfl, rfl⟩
theorem PartsRoundTrip.staIndY (b : Byte) : PartsRoundTrip.Statement (.staIndY b) := ⟨rfl, rfl⟩
theorem PartsRoundTrip.stxZp (b : Byte) : PartsRoundTrip.Statement (.stxZp b) := ⟨rfl, rfl⟩
theorem PartsRoundTrip.stxZpY (b : Byte) : PartsRoundTrip.Statement (.stxZpY b) := ⟨rfl, rfl⟩
theorem PartsRoundTrip.stxAbs (a : Word) : PartsRoundTrip.Statement (.stxAbs a) :=
  ⟨rfl, congrArg (fun w => some (Instr.stxAbs w)) (word_lo_hi a)⟩
theorem PartsRoundTrip.styZp (b : Byte) : PartsRoundTrip.Statement (.styZp b) := ⟨rfl, rfl⟩
theorem PartsRoundTrip.styZpX (b : Byte) : PartsRoundTrip.Statement (.styZpX b) := ⟨rfl, rfl⟩
theorem PartsRoundTrip.styAbs (a : Word) : PartsRoundTrip.Statement (.styAbs a) :=
  ⟨rfl, congrArg (fun w => some (Instr.styAbs w)) (word_lo_hi a)⟩
theorem PartsRoundTrip.pha : PartsRoundTrip.Statement .pha := ⟨rfl, rfl⟩
theorem PartsRoundTrip.php : PartsRoundTrip.Statement .php := ⟨rfl, rfl⟩
theorem PartsRoundTrip.pla : PartsRoundTrip.Statement .pla := ⟨rfl, rfl⟩
theorem PartsRoundTrip.plp : PartsRoundTrip.Statement .plp := ⟨rfl, rfl⟩
theorem PartsRoundTrip.andImm (v : Byte) : PartsRoundTrip.Statement (.andImm v) := ⟨rfl, rfl⟩
theorem PartsRoundTrip.andZp (b : Byte) : PartsRoundTrip.Statement (.andZp b) := ⟨rfl, rfl⟩
theorem PartsRoundTrip.andZpX (b : Byte) : PartsRoundTrip.Statement (.andZpX b) := ⟨rfl, rfl⟩
theorem PartsRoundTrip.andAbs (a : Word) : PartsRoundTrip.Statement (.andAbs a) :=
  ⟨rfl, congrArg (fun w => some (Instr.andAbs w)) (word_lo_hi a)⟩
theorem PartsRoundTrip.andAbsX (a : Word) : PartsRoundTrip.Statement (.andAbsX a) :=
  ⟨rfl, congrArg (fun w => some (Instr.andAbsX w)) (word_lo_hi a)⟩
theorem PartsRoundTrip.andAbsY (a : Word) : PartsRoundTrip.Statement (.andAbsY a) :=
  ⟨rfl, congrArg (fun w => some (Instr.andAbsY w)) (word_lo_hi a)⟩
theorem PartsRoundTrip.andIndX (b : Byte) : PartsRoundTrip.Statement (.andIndX b) := ⟨rfl, rfl⟩
theorem PartsRoundTrip.andIndY (b : Byte) : PartsRoundTrip.Statement (.andIndY b) := ⟨rfl, rfl⟩
theorem PartsRoundTrip.eorImm (v : Byte) : PartsRoundTrip.Statement (.eorImm v) := ⟨rfl, rfl⟩
theorem PartsRoundTrip.eorZp (b : Byte) : PartsRoundTrip.Statement (.eorZp b) := ⟨rfl, rfl⟩
theorem PartsRoundTrip.eorZpX (b : Byte) : PartsRoundTrip.Statement (.eorZpX b) := ⟨rfl, rfl⟩
theorem PartsRoundTrip.eorAbs (a : Word) : PartsRoundTrip.Statement (.eorAbs a) :=
  ⟨rfl, congrArg (fun w => some (Instr.eorAbs w)) (word_lo_hi a)⟩
theorem PartsRoundTrip.eorAbsX (a : Word) : PartsRoundTrip.Statement (.eorAbsX a) :=
  ⟨rfl, congrArg (fun w => some (Instr.eorAbsX w)) (word_lo_hi a)⟩
theorem PartsRoundTrip.eorAbsY (a : Word) : PartsRoundTrip.Statement (.eorAbsY a) :=
  ⟨rfl, congrArg (fun w => some (Instr.eorAbsY w)) (word_lo_hi a)⟩
theorem PartsRoundTrip.eorIndX (b : Byte) : PartsRoundTrip.Statement (.eorIndX b) := ⟨rfl, rfl⟩
theorem PartsRoundTrip.eorIndY (b : Byte) : PartsRoundTrip.Statement (.eorIndY b) := ⟨rfl, rfl⟩
theorem PartsRoundTrip.oraImm (v : Byte) : PartsRoundTrip.Statement (.oraImm v) := ⟨rfl, rfl⟩
theorem PartsRoundTrip.oraZp (b : Byte) : PartsRoundTrip.Statement (.oraZp b) := ⟨rfl, rfl⟩
theorem PartsRoundTrip.oraZpX (b : Byte) : PartsRoundTrip.Statement (.oraZpX b) := ⟨rfl, rfl⟩
theorem PartsRoundTrip.oraAbs (a : Word) : PartsRoundTrip.Statement (.oraAbs a) :=
  ⟨rfl, congrArg (fun w => some (Instr.oraAbs w)) (word_lo_hi a)⟩
theorem PartsRoundTrip.oraAbsX (a : Word) : PartsRoundTrip.Statement (.oraAbsX a) :=
  ⟨rfl, congrArg (fun w => some (Instr.oraAbsX w)) (word_lo_hi a)⟩
theorem PartsRoundTrip.oraAbsY (a : Word) : PartsRoundTrip.Statement (.oraAbsY a) :=
  ⟨rfl, congrArg (fun w => some (Instr.oraAbsY w)) (word_lo_hi a)⟩
theorem PartsRoundTrip.oraIndX (b : Byte) : PartsRoundTrip.Statement (.oraIndX b) := ⟨rfl, rfl⟩
theorem PartsRoundTrip.oraIndY (b : Byte) : PartsRoundTrip.Statement (.oraIndY b) := ⟨rfl, rfl⟩
theorem PartsRoundTrip.bitZp (b : Byte) : PartsRoundTrip.Statement (.bitZp b) := ⟨rfl, rfl⟩
theorem PartsRoundTrip.bitAbs (a : Word) : PartsRoundTrip.Statement (.bitAbs a) :=
  ⟨rfl, congrArg (fun w => some (Instr.bitAbs w)) (word_lo_hi a)⟩
theorem PartsRoundTrip.adcImm (v : Byte) : PartsRoundTrip.Statement (.adcImm v) := ⟨rfl, rfl⟩
theorem PartsRoundTrip.adcZp (b : Byte) : PartsRoundTrip.Statement (.adcZp b) := ⟨rfl, rfl⟩
theorem PartsRoundTrip.adcZpX (b : Byte) : PartsRoundTrip.Statement (.adcZpX b) := ⟨rfl, rfl⟩
theorem PartsRoundTrip.adcAbs (a : Word) : PartsRoundTrip.Statement (.adcAbs a) :=
  ⟨rfl, congrArg (fun w => some (Instr.adcAbs w)) (word_lo_hi a)⟩
theorem PartsRoundTrip.adcAbsX (a : Word) : PartsRoundTrip.Statement (.adcAbsX a) :=
  ⟨rfl, congrArg (fun w => some (Instr.adcAbsX w)) (word_lo_hi a)⟩
theorem PartsRoundTrip.adcAbsY (a : Word) : PartsRoundTrip.Statement (.adcAbsY a) :=
  ⟨rfl, congrArg (fun w => some (Instr.adcAbsY w)) (word_lo_hi a)⟩
theorem PartsRoundTrip.adcIndX (b : Byte) : PartsRoundTrip.Statement (.adcIndX b) := ⟨rfl, rfl⟩
theorem PartsRoundTrip.adcIndY (b : Byte) : PartsRoundTrip.Statement (.adcIndY b) := ⟨rfl, rfl⟩
theorem PartsRoundTrip.sbcImm (v : Byte) : PartsRoundTrip.Statement (.sbcImm v) := ⟨rfl, rfl⟩
theorem PartsRoundTrip.sbcZp (b : Byte) : PartsRoundTrip.Statement (.sbcZp b) := ⟨rfl, rfl⟩
theorem PartsRoundTrip.sbcZpX (b : Byte) : PartsRoundTrip.Statement (.sbcZpX b) := ⟨rfl, rfl⟩
theorem PartsRoundTrip.sbcAbs (a : Word) : PartsRoundTrip.Statement (.sbcAbs a) :=
  ⟨rfl, congrArg (fun w => some (Instr.sbcAbs w)) (word_lo_hi a)⟩
theorem PartsRoundTrip.sbcAbsX (a : Word) : PartsRoundTrip.Statement (.sbcAbsX a) :=
  ⟨rfl, congrArg (fun w => some (Instr.sbcAbsX w)) (word_lo_hi a)⟩
theorem PartsRoundTrip.sbcAbsY (a : Word) : PartsRoundTrip.Statement (.sbcAbsY a) :=
  ⟨rfl, congrArg (fun w => some (Instr.sbcAbsY w)) (word_lo_hi a)⟩
theorem PartsRoundTrip.sbcIndX (b : Byte) : PartsRoundTrip.Statement (.sbcIndX b) := ⟨rfl, rfl⟩
theorem PartsRoundTrip.sbcIndY (b : Byte) : PartsRoundTrip.Statement (.sbcIndY b) := ⟨rfl, rfl⟩
theorem PartsRoundTrip.cmpImm (v : Byte) : PartsRoundTrip.Statement (.cmpImm v) := ⟨rfl, rfl⟩
theorem PartsRoundTrip.cmpZp (b : Byte) : PartsRoundTrip.Statement (.cmpZp b) := ⟨rfl, rfl⟩
theorem PartsRoundTrip.cmpZpX (b : Byte) : PartsRoundTrip.Statement (.cmpZpX b) := ⟨rfl, rfl⟩
theorem PartsRoundTrip.cmpAbs (a : Word) : PartsRoundTrip.Statement (.cmpAbs a) :=
  ⟨rfl, congrArg (fun w => some (Instr.cmpAbs w)) (word_lo_hi a)⟩
theorem PartsRoundTrip.cmpAbsX (a : Word) : PartsRoundTrip.Statement (.cmpAbsX a) :=
  ⟨rfl, congrArg (fun w => some (Instr.cmpAbsX w)) (word_lo_hi a)⟩
theorem PartsRoundTrip.cmpAbsY (a : Word) : PartsRoundTrip.Statement (.cmpAbsY a) :=
  ⟨rfl, congrArg (fun w => some (Instr.cmpAbsY w)) (word_lo_hi a)⟩
theorem PartsRoundTrip.cmpIndX (b : Byte) : PartsRoundTrip.Statement (.cmpIndX b) := ⟨rfl, rfl⟩
theorem PartsRoundTrip.cmpIndY (b : Byte) : PartsRoundTrip.Statement (.cmpIndY b) := ⟨rfl, rfl⟩
theorem PartsRoundTrip.cpxImm (v : Byte) : PartsRoundTrip.Statement (.cpxImm v) := ⟨rfl, rfl⟩
theorem PartsRoundTrip.cpxZp (b : Byte) : PartsRoundTrip.Statement (.cpxZp b) := ⟨rfl, rfl⟩
theorem PartsRoundTrip.cpxAbs (a : Word) : PartsRoundTrip.Statement (.cpxAbs a) :=
  ⟨rfl, congrArg (fun w => some (Instr.cpxAbs w)) (word_lo_hi a)⟩
theorem PartsRoundTrip.cpyImm (v : Byte) : PartsRoundTrip.Statement (.cpyImm v) := ⟨rfl, rfl⟩
theorem PartsRoundTrip.cpyZp (b : Byte) : PartsRoundTrip.Statement (.cpyZp b) := ⟨rfl, rfl⟩
theorem PartsRoundTrip.cpyAbs (a : Word) : PartsRoundTrip.Statement (.cpyAbs a) :=
  ⟨rfl, congrArg (fun w => some (Instr.cpyAbs w)) (word_lo_hi a)⟩
theorem PartsRoundTrip.incZp (b : Byte) : PartsRoundTrip.Statement (.incZp b) := ⟨rfl, rfl⟩
theorem PartsRoundTrip.incZpX (b : Byte) : PartsRoundTrip.Statement (.incZpX b) := ⟨rfl, rfl⟩
theorem PartsRoundTrip.incAbs (a : Word) : PartsRoundTrip.Statement (.incAbs a) :=
  ⟨rfl, congrArg (fun w => some (Instr.incAbs w)) (word_lo_hi a)⟩
theorem PartsRoundTrip.incAbsX (a : Word) : PartsRoundTrip.Statement (.incAbsX a) :=
  ⟨rfl, congrArg (fun w => some (Instr.incAbsX w)) (word_lo_hi a)⟩
theorem PartsRoundTrip.inx : PartsRoundTrip.Statement .inx := ⟨rfl, rfl⟩
theorem PartsRoundTrip.iny : PartsRoundTrip.Statement .iny := ⟨rfl, rfl⟩
theorem PartsRoundTrip.decZp (b : Byte) : PartsRoundTrip.Statement (.decZp b) := ⟨rfl, rfl⟩
theorem PartsRoundTrip.decZpX (b : Byte) : PartsRoundTrip.Statement (.decZpX b) := ⟨rfl, rfl⟩
theorem PartsRoundTrip.decAbs (a : Word) : PartsRoundTrip.Statement (.decAbs a) :=
  ⟨rfl, congrArg (fun w => some (Instr.decAbs w)) (word_lo_hi a)⟩
theorem PartsRoundTrip.decAbsX (a : Word) : PartsRoundTrip.Statement (.decAbsX a) :=
  ⟨rfl, congrArg (fun w => some (Instr.decAbsX w)) (word_lo_hi a)⟩
theorem PartsRoundTrip.dex : PartsRoundTrip.Statement .dex := ⟨rfl, rfl⟩
theorem PartsRoundTrip.dey : PartsRoundTrip.Statement .dey := ⟨rfl, rfl⟩
theorem PartsRoundTrip.aslAcc : PartsRoundTrip.Statement .aslAcc := ⟨rfl, rfl⟩
theorem PartsRoundTrip.aslZp (b : Byte) : PartsRoundTrip.Statement (.aslZp b) := ⟨rfl, rfl⟩
theorem PartsRoundTrip.aslZpX (b : Byte) : PartsRoundTrip.Statement (.aslZpX b) := ⟨rfl, rfl⟩
theorem PartsRoundTrip.aslAbs (a : Word) : PartsRoundTrip.Statement (.aslAbs a) :=
  ⟨rfl, congrArg (fun w => some (Instr.aslAbs w)) (word_lo_hi a)⟩
theorem PartsRoundTrip.aslAbsX (a : Word) : PartsRoundTrip.Statement (.aslAbsX a) :=
  ⟨rfl, congrArg (fun w => some (Instr.aslAbsX w)) (word_lo_hi a)⟩
theorem PartsRoundTrip.lsrAcc : PartsRoundTrip.Statement .lsrAcc := ⟨rfl, rfl⟩
theorem PartsRoundTrip.lsrZp (b : Byte) : PartsRoundTrip.Statement (.lsrZp b) := ⟨rfl, rfl⟩
theorem PartsRoundTrip.lsrZpX (b : Byte) : PartsRoundTrip.Statement (.lsrZpX b) := ⟨rfl, rfl⟩
theorem PartsRoundTrip.lsrAbs (a : Word) : PartsRoundTrip.Statement (.lsrAbs a) :=
  ⟨rfl, congrArg (fun w => some (Instr.lsrAbs w)) (word_lo_hi a)⟩
theorem PartsRoundTrip.lsrAbsX (a : Word) : PartsRoundTrip.Statement (.lsrAbsX a) :=
  ⟨rfl, congrArg (fun w => some (Instr.lsrAbsX w)) (word_lo_hi a)⟩
theorem PartsRoundTrip.rolAcc : PartsRoundTrip.Statement .rolAcc := ⟨rfl, rfl⟩
theorem PartsRoundTrip.rolZp (b : Byte) : PartsRoundTrip.Statement (.rolZp b) := ⟨rfl, rfl⟩
theorem PartsRoundTrip.rolZpX (b : Byte) : PartsRoundTrip.Statement (.rolZpX b) := ⟨rfl, rfl⟩
theorem PartsRoundTrip.rolAbs (a : Word) : PartsRoundTrip.Statement (.rolAbs a) :=
  ⟨rfl, congrArg (fun w => some (Instr.rolAbs w)) (word_lo_hi a)⟩
theorem PartsRoundTrip.rolAbsX (a : Word) : PartsRoundTrip.Statement (.rolAbsX a) :=
  ⟨rfl, congrArg (fun w => some (Instr.rolAbsX w)) (word_lo_hi a)⟩
theorem PartsRoundTrip.rorAcc : PartsRoundTrip.Statement .rorAcc := ⟨rfl, rfl⟩
theorem PartsRoundTrip.rorZp (b : Byte) : PartsRoundTrip.Statement (.rorZp b) := ⟨rfl, rfl⟩
theorem PartsRoundTrip.rorZpX (b : Byte) : PartsRoundTrip.Statement (.rorZpX b) := ⟨rfl, rfl⟩
theorem PartsRoundTrip.rorAbs (a : Word) : PartsRoundTrip.Statement (.rorAbs a) :=
  ⟨rfl, congrArg (fun w => some (Instr.rorAbs w)) (word_lo_hi a)⟩
theorem PartsRoundTrip.rorAbsX (a : Word) : PartsRoundTrip.Statement (.rorAbsX a) :=
  ⟨rfl, congrArg (fun w => some (Instr.rorAbsX w)) (word_lo_hi a)⟩
theorem PartsRoundTrip.bcc (off : Byte) : PartsRoundTrip.Statement (.bcc off) := ⟨rfl, rfl⟩
theorem PartsRoundTrip.bcs (off : Byte) : PartsRoundTrip.Statement (.bcs off) := ⟨rfl, rfl⟩
theorem PartsRoundTrip.beq (off : Byte) : PartsRoundTrip.Statement (.beq off) := ⟨rfl, rfl⟩
theorem PartsRoundTrip.bmi (off : Byte) : PartsRoundTrip.Statement (.bmi off) := ⟨rfl, rfl⟩
theorem PartsRoundTrip.bne (off : Byte) : PartsRoundTrip.Statement (.bne off) := ⟨rfl, rfl⟩
theorem PartsRoundTrip.bpl (off : Byte) : PartsRoundTrip.Statement (.bpl off) := ⟨rfl, rfl⟩
theorem PartsRoundTrip.bvc (off : Byte) : PartsRoundTrip.Statement (.bvc off) := ⟨rfl, rfl⟩
theorem PartsRoundTrip.bvs (off : Byte) : PartsRoundTrip.Statement (.bvs off) := ⟨rfl, rfl⟩
theorem PartsRoundTrip.jmpAbs (a : Word) : PartsRoundTrip.Statement (.jmpAbs a) :=
  ⟨rfl, congrArg (fun w => some (Instr.jmpAbs w)) (word_lo_hi a)⟩
theorem PartsRoundTrip.jmpInd (a : Word) : PartsRoundTrip.Statement (.jmpInd a) :=
  ⟨rfl, congrArg (fun w => some (Instr.jmpInd w)) (word_lo_hi a)⟩
theorem PartsRoundTrip.jsr (a : Word) : PartsRoundTrip.Statement (.jsr a) :=
  ⟨rfl, congrArg (fun w => some (Instr.jsr w)) (word_lo_hi a)⟩
theorem PartsRoundTrip.rts : PartsRoundTrip.Statement .rts := ⟨rfl, rfl⟩
theorem PartsRoundTrip.clc : PartsRoundTrip.Statement .clc := ⟨rfl, rfl⟩
theorem PartsRoundTrip.cld : PartsRoundTrip.Statement .cld := ⟨rfl, rfl⟩
theorem PartsRoundTrip.cli : PartsRoundTrip.Statement .cli := ⟨rfl, rfl⟩
theorem PartsRoundTrip.clv : PartsRoundTrip.Statement .clv := ⟨rfl, rfl⟩
theorem PartsRoundTrip.sec : PartsRoundTrip.Statement .sec := ⟨rfl, rfl⟩
theorem PartsRoundTrip.sed : PartsRoundTrip.Statement .sed := ⟨rfl, rfl⟩
theorem PartsRoundTrip.sei : PartsRoundTrip.Statement .sei := ⟨rfl, rfl⟩
theorem PartsRoundTrip.brk : PartsRoundTrip.Statement .brk := ⟨rfl, rfl⟩
theorem PartsRoundTrip.rti : PartsRoundTrip.Statement .rti := ⟨rfl, rfl⟩
theorem PartsRoundTrip.res : PartsRoundTrip.Statement .res := ⟨rfl, rfl⟩
theorem PartsRoundTrip.nop : PartsRoundTrip.Statement .nop := ⟨rfl, rfl⟩

end Sys2Proof.Laws
end

