-- ==== Sys2Proof/Laws/Forms.lean ====
section
/-! SUPPORT. What exec does with each mnemonic, whatever its mode: the constructors of a mnemonic are gathered once here, so
that a proof about LDA is a proof about `opLda` and not about eight constructors. -/

namespace Sys2Proof.Machine

open Sys2Proof.Laws

/-- LDA in any of its modes. -/
theorem exec_lda {i : Instr} (h : i.mnemonic = .lda) (s : State) :
    ∃ o, operand? i = some o ∧ o.bytes = i.mode.operandCount ∧ exec i s = .next (opLda o s) := by
  cases i <;> first
    | (cases h; done)
    | exact ⟨_, by simp [operand?, memOperandOf, Instr.mode, Instr.operandBytes, Instr.parts, word_lo_hi], rfl, rfl⟩

/-- LDX in any of its modes. -/
theorem exec_ldx {i : Instr} (h : i.mnemonic = .ldx) (s : State) :
    ∃ o, operand? i = some o ∧ o.bytes = i.mode.operandCount ∧ exec i s = .next (opLdx o s) := by
  cases i <;> first
    | (cases h; done)
    | exact ⟨_, by simp [operand?, memOperandOf, Instr.mode, Instr.operandBytes, Instr.parts, word_lo_hi], rfl, rfl⟩

/-- LDY in any of its modes. -/
theorem exec_ldy {i : Instr} (h : i.mnemonic = .ldy) (s : State) :
    ∃ o, operand? i = some o ∧ o.bytes = i.mode.operandCount ∧ exec i s = .next (opLdy o s) := by
  cases i <;> first
    | (cases h; done)
    | exact ⟨_, by simp [operand?, memOperandOf, Instr.mode, Instr.operandBytes, Instr.parts, word_lo_hi], rfl, rfl⟩

/-- AND in any of its modes. -/
theorem exec_and {i : Instr} (h : i.mnemonic = .and) (s : State) :
    ∃ o, operand? i = some o ∧ o.bytes = i.mode.operandCount ∧ exec i s = .next (opAnd o s) := by
  cases i <;> first
    | (cases h; done)
    | exact ⟨_, by simp [operand?, memOperandOf, Instr.mode, Instr.operandBytes, Instr.parts, word_lo_hi], rfl, rfl⟩

/-- EOR in any of its modes. -/
theorem exec_eor {i : Instr} (h : i.mnemonic = .eor) (s : State) :
    ∃ o, operand? i = some o ∧ o.bytes = i.mode.operandCount ∧ exec i s = .next (opEor o s) := by
  cases i <;> first
    | (cases h; done)
    | exact ⟨_, by simp [operand?, memOperandOf, Instr.mode, Instr.operandBytes, Instr.parts, word_lo_hi], rfl, rfl⟩

/-- ORA in any of its modes. -/
theorem exec_ora {i : Instr} (h : i.mnemonic = .ora) (s : State) :
    ∃ o, operand? i = some o ∧ o.bytes = i.mode.operandCount ∧ exec i s = .next (opOra o s) := by
  cases i <;> first
    | (cases h; done)
    | exact ⟨_, by simp [operand?, memOperandOf, Instr.mode, Instr.operandBytes, Instr.parts, word_lo_hi], rfl, rfl⟩

/-- BIT in any of its modes. -/
theorem exec_bit {i : Instr} (h : i.mnemonic = .bit) (s : State) :
    ∃ o, operand? i = some o ∧ o.bytes = i.mode.operandCount ∧ exec i s = .next (opBit o s) := by
  cases i <;> first
    | (cases h; done)
    | exact ⟨_, by simp [operand?, memOperandOf, Instr.mode, Instr.operandBytes, Instr.parts, word_lo_hi], rfl, rfl⟩

/-- ADC in any of its modes. -/
theorem exec_adc {i : Instr} (h : i.mnemonic = .adc) (s : State) :
    ∃ o, operand? i = some o ∧ o.bytes = i.mode.operandCount ∧ exec i s = opAdc o s := by
  cases i <;> first
    | (cases h; done)
    | exact ⟨_, by simp [operand?, memOperandOf, Instr.mode, Instr.operandBytes, Instr.parts, word_lo_hi], rfl, rfl⟩

/-- SBC in any of its modes. -/
theorem exec_sbc {i : Instr} (h : i.mnemonic = .sbc) (s : State) :
    ∃ o, operand? i = some o ∧ o.bytes = i.mode.operandCount ∧ exec i s = opSbc o s := by
  cases i <;> first
    | (cases h; done)
    | exact ⟨_, by simp [operand?, memOperandOf, Instr.mode, Instr.operandBytes, Instr.parts, word_lo_hi], rfl, rfl⟩

/-- CMP in any of its modes. -/
theorem exec_cmp {i : Instr} (h : i.mnemonic = .cmp) (s : State) :
    ∃ o, operand? i = some o ∧ o.bytes = i.mode.operandCount ∧ exec i s = .next (opCmp o s) := by
  cases i <;> first
    | (cases h; done)
    | exact ⟨_, by simp [operand?, memOperandOf, Instr.mode, Instr.operandBytes, Instr.parts, word_lo_hi], rfl, rfl⟩

/-- CPX in any of its modes. -/
theorem exec_cpx {i : Instr} (h : i.mnemonic = .cpx) (s : State) :
    ∃ o, operand? i = some o ∧ o.bytes = i.mode.operandCount ∧ exec i s = .next (opCpx o s) := by
  cases i <;> first
    | (cases h; done)
    | exact ⟨_, by simp [operand?, memOperandOf, Instr.mode, Instr.operandBytes, Instr.parts, word_lo_hi], rfl, rfl⟩

/-- CPY in any of its modes. -/
theorem exec_cpy {i : Instr} (h : i.mnemonic = .cpy) (s : State) :
    ∃ o, operand? i = some o ∧ o.bytes = i.mode.operandCount ∧ exec i s = .next (opCpy o s) := by
  cases i <;> first
    | (cases h; done)
    | exact ⟨_, by simp [operand?, memOperandOf, Instr.mode, Instr.operandBytes, Instr.parts, word_lo_hi], rfl, rfl⟩

/-- STA in any of its modes. -/
theorem exec_sta {i : Instr} (h : i.mnemonic = .sta) (s : State) :
    ∃ m, memOperand? i = some m ∧ m.bytes = i.mode.operandCount ∧ exec i s = .next (opSta m s) := by
  cases i <;> first
    | (cases h; done)
    | exact ⟨_, by simp [memOperand?, memOperandOf, Instr.mode, Instr.operandBytes, Instr.parts, word_lo_hi], rfl, rfl⟩

/-- STX in any of its modes. -/
theorem exec_stx {i : Instr} (h : i.mnemonic = .stx) (s : State) :
    ∃ m, memOperand? i = some m ∧ m.bytes = i.mode.operandCount ∧ exec i s = .next (opStx m s) := by
  cases i <;> first
    | (cases h; done)
    | exact ⟨_, by simp [memOperand?, memOperandOf, Instr.mode, Instr.operandBytes, Instr.parts, word_lo_hi], rfl, rfl⟩

/-- STY in any of its modes. -/
theorem exec_sty {i : Instr} (h : i.mnemonic = .sty) (s : State) :
    ∃ m, memOperand? i = some m ∧ m.bytes = i.mode.operandCount ∧ exec i s = .next (opSty m s) := by
  cases i <;> first
    | (cases h; done)
    | exact ⟨_, by simp [memOperand?, memOperandOf, Instr.mode, Instr.operandBytes, Instr.parts, word_lo_hi], rfl, rfl⟩

/-- INC in any of its modes. -/
theorem exec_inc {i : Instr} (h : i.mnemonic = .inc) (s : State) :
    ∃ m, memOperand? i = some m ∧ m.bytes = i.mode.operandCount ∧ exec i s = .next (opInc m s) := by
  cases i <;> first
    | (cases h; done)
    | exact ⟨_, by simp [memOperand?, memOperandOf, Instr.mode, Instr.operandBytes, Instr.parts, word_lo_hi], rfl, rfl⟩

/-- DEC in any of its modes. -/
theorem exec_dec {i : Instr} (h : i.mnemonic = .dec) (s : State) :
    ∃ m, memOperand? i = some m ∧ m.bytes = i.mode.operandCount ∧ exec i s = .next (opDec m s) := by
  cases i <;> first
    | (cases h; done)
    | exact ⟨_, by simp [memOperand?, memOperandOf, Instr.mode, Instr.operandBytes, Instr.parts, word_lo_hi], rfl, rfl⟩

/-- ASL in any of its modes: on A, or on a memory cell. -/
theorem exec_asl {i : Instr} (h : i.mnemonic = .asl) (s : State) :
    (i.mode = .accumulator ∧ exec i s = .next (opAsl .acc s)) ∨
    (i.mode ≠ .accumulator ∧ ∃ m, memOperand? i = some m ∧ m.bytes = i.mode.operandCount ∧
      exec i s = .next (opAsl (.mem m) s)) := by
  cases i <;> first
    | (cases h; done)
    | exact .inl ⟨rfl, rfl⟩
    | exact .inr ⟨nofun, _, by simp [memOperand?, memOperandOf, Instr.mode, Instr.operandBytes, Instr.parts, word_lo_hi], rfl, rfl⟩

/-- LSR in any of its modes: on A, or on a memory cell. -/
theorem exec_lsr {i : Instr} (h : i.mnemonic = .lsr) (s : State) :
    (i.mode = .accumulator ∧ exec i s = .next (opLsr .acc s)) ∨
    (i.mode ≠ .accumulator ∧ ∃ m, memOperand? i = some m ∧ m.bytes = i.mode.operandCount ∧
      exec i s = .next (opLsr (.mem m) s)) := by
  cases i <;> first
    | (cases h; done)
    | exact .inl ⟨rfl, rfl⟩
    | exact .inr ⟨nofun, _, by simp [memOperand?, memOperandOf, Instr.mode, Instr.operandBytes, Instr.parts, word_lo_hi], rfl, rfl⟩

/-- ROL in any of its modes: on A, or on a memory cell. -/
theorem exec_rol {i : Instr} (h : i.mnemonic = .rol) (s : State) :
    (i.mode = .accumulator ∧ exec i s = .next (opRol .acc s)) ∨
    (i.mode ≠ .accumulator ∧ ∃ m, memOperand? i = some m ∧ m.bytes = i.mode.operandCount ∧
      exec i s = .next (opRol (.mem m) s)) := by
  cases i <;> first
    | (cases h; done)
    | exact .inl ⟨rfl, rfl⟩
    | exact .inr ⟨nofun, _, by simp [memOperand?, memOperandOf, Instr.mode, Instr.operandBytes, Instr.parts, word_lo_hi], rfl, rfl⟩

/-- ROR in any of its modes: on A, or on a memory cell. -/
theorem exec_ror {i : Instr} (h : i.mnemonic = .ror) (s : State) :
    (i.mode = .accumulator ∧ exec i s = .next (opRor .acc s)) ∨
    (i.mode ≠ .accumulator ∧ ∃ m, memOperand? i = some m ∧ m.bytes = i.mode.operandCount ∧
      exec i s = .next (opRor (.mem m) s)) := by
  cases i <;> first
    | (cases h; done)
    | exact .inl ⟨rfl, rfl⟩
    | exact .inr ⟨nofun, _, by simp [memOperand?, memOperandOf, Instr.mode, Instr.operandBytes, Instr.parts, word_lo_hi], rfl, rfl⟩

end Sys2Proof.Machine
end

