-- ==== Sys2Proof/Tests/Slice0.lean ====
section
/-! SUPPORT. The model's own tests: well-formedness refuses what it should; every constructor's decoding from bytes written
out from the opcode tables of files 41 to 49; single steps with the results of 95_test_vectors.md (T1 to T122); and for
every statement with hypotheses, a state and operands that meet them. -/

namespace Sys2Proof.Tests

open Sys2Proof Sys2Proof.Machine Sys2Proof.Says

set_option Elab.async false

/-! ## Helpers -/

/-- The base state of 95_test_vectors.md, with code at `pc`. -/
def start (pc : Word) (code : List Byte) : State :=
  { State.reset with pc := pc, mem := Memory.writeBytes [] pc code }

/-- The state after the opcode fetch, for statements about `exec`. -/
def fetched (pc : Word) (code : List Byte) : State := (start pc code).takeByte

/-- Bytes put into memory. -/
def poke (s : State) (cells : List (Word × Byte)) : State :=
  { s with mem := cells.foldl (fun m e => m.write e.1 e.2) s.mem }

/-- The outcome is a next state with this property. -/
def after (o : Host.Outcome State Fault Refusal) (p : State → Bool) : Bool :=
  match o with
  | .next t => p t
  | .fault _ => false
  | .refused _ => false

/-- The outcome is a fault. -/
def faults (o : Host.Outcome State Fault Refusal) (r : Fault) : Bool :=
  match o with
  | .fault q => q == r
  | .next _ => false
  | .refused _ => false

/-- The outcome is a refusal. -/
def refuses (o : Host.Outcome State Fault Refusal) (r : Refusal) : Bool :=
  match o with
  | .refused q => q == r
  | .next _ => false
  | .fault _ => false

theorem next_of_after {o : Host.Outcome State Fault Refusal} {p : State → Bool} (h : after o p = true) :
    ∃ t, o = .next t ∧ p t = true := by
  cases o with
  | next t => exact ⟨t, rfl, h⟩
  | fault r => cases h
  | refused r => cases h

/-- Each byte sequence decodes to its instruction, with nothing left over. -/
def decodes (cfg : Config) (l : List (List Byte × Instr)) : Bool :=
  l.all fun e => decide (decode cfg e.1 = .instr e.2 [])

/-! ## Well-formedness: an ill-formed term for each check -/

/-- The default configuration passes. -/
theorem test_wf_default : Config.default.wf = true := by decide +kernel
/-- A record of a pair that no rule defines is refused (LDA has no accumulator mode, R79); one of a pair that a rule defines
is built. -/
theorem test_wf_illegal_pair :
    OpRow.build 0x02 .lda .accumulator = none ∧ (OpRow.build 0x02 .lda .absolute).isSome = true := by decide +kernel
/-- The legal pairs are exactly those that have an instruction: 152 of the 57 mnemonics' pairs with 13 modes. -/
theorem test_legal_pairs (mn : Mnemonic) (mode : Mode) :
    legalPair mn mode = (Instr.ofParts mn mode 0x00 0x00).isSome := by
  cases mn <;> cases mode <;> rfl
/-- Two records of one byte (R78: one entry a byte). -/
theorem test_wf_two_records :
    ({ Config.default with dispatch := [⟨0xA9, .lda, .immediate, rfl⟩, ⟨0xA9, .nop, .implied, rfl⟩] } : Config).wf =
      false := by decide +kernel
/-- A model refuses to build the first of these tables and builds the second (R79). -/
theorem test_build :
    Config.build Config.default [(0xA9, .lda, .immediate), (0x02, .sta, .immediate)] = none ∧
    (Config.build Config.default [(0xA9, .lda, .immediate), (0x02, .sta, .absolute)]).isSome = true := by decide +kernel
/-- RES is ill formed unless RES_OPCODE binds it to a byte that is otherwise unused (R103, R166). -/
theorem test_wf_res :
    Instr.res.wf Config.default = false ∧
    Instr.res.wf { Config.default with resOpcode := some 0xA9 } = false ∧
    Instr.res.wf { Config.default with resOpcode := some 0x02 } = true := by decide +kernel
/-- An instruction whose pair has no byte in the table is ill formed. -/
theorem test_wf_no_byte :
    (Instr.nop).wf { Config.default with dispatch := [⟨0xA9, .lda, .immediate, rfl⟩] } = false := by decide +kernel

/-! ## Decoding, from bytes written out from the opcode tables -/

/-- 41_load_store_transfer.md. -/
theorem test_decode_load_store_transfer_1 : decodes Config.default [
      ([0xA9, 0xC7], .ldaImm 0xC7), ([0xA5, 0xC7], .ldaZp 0xC7), ([0xB5, 0xC7], .ldaZpX 0xC7),
      ([0xAD, 0x34, 0x92], .ldaAbs 0x9234), ([0xBD, 0x34, 0x92], .ldaAbsX 0x9234),
      ([0xB9, 0x34, 0x92], .ldaAbsY 0x9234), ([0xA1, 0xC7], .ldaIndX 0xC7), ([0xB1, 0xC7], .ldaIndY 0xC7),
      ([0xA2, 0xC7], .ldxImm 0xC7), ([0xA6, 0xC7], .ldxZp 0xC7), ([0xB6, 0xC7], .ldxZpY 0xC7),
      ([0xAE, 0x34, 0x92], .ldxAbs 0x9234), ([0xBE, 0x34, 0x92], .ldxAbsY 0x9234), ([0xA0, 0xC7], .ldyImm 0xC7),
      ([0xA4, 0xC7], .ldyZp 0xC7), ([0xB4, 0xC7], .ldyZpX 0xC7), ([0xAC, 0x34, 0x92], .ldyAbs 0x9234),
      ([0xBC, 0x34, 0x92], .ldyAbsX 0x9234), ([0xAA], .tax), ([0xA8], .tay), ([0x8A], .txa), ([0x98], .tya),
      ([0xBA], .tsx), ([0x9A], .txs)] = true := by decide +kernel
/-- 41_load_store_transfer.md. -/
theorem test_decode_load_store_transfer_2 : decodes Config.default [
      ([0x85, 0xC7], .staZp 0xC7), ([0x95, 0xC7], .staZpX 0xC7), ([0x8D, 0x34, 0x92], .staAbs 0x9234),
      ([0x9D, 0x34, 0x92], .staAbsX 0x9234), ([0x99, 0x34, 0x92], .staAbsY 0x9234),
      ([0x81, 0xC7], .staIndX 0xC7), ([0x91, 0xC7], .staIndY 0xC7), ([0x86, 0xC7], .stxZp 0xC7),
      ([0x96, 0xC7], .stxZpY 0xC7), ([0x8E, 0x34, 0x92], .stxAbs 0x9234), ([0x84, 0xC7], .styZp 0xC7),
      ([0x94, 0xC7], .styZpX 0xC7), ([0x8C, 0x34, 0x92], .styAbs 0x9234)] = true := by decide +kernel
/-- 42_stack.md. -/
theorem test_decode_stack : decodes Config.default [
      ([0x48], .pha), ([0x08], .php), ([0x68], .pla), ([0x28], .plp)] = true := by decide +kernel
/-- 43_logical.md. -/
theorem test_decode_logical_1 : decodes Config.default [
      ([0x29, 0xC7], .andImm 0xC7), ([0x25, 0xC7], .andZp 0xC7), ([0x35, 0xC7], .andZpX 0xC7),
      ([0x2D, 0x34, 0x92], .andAbs 0x9234), ([0x3D, 0x34, 0x92], .andAbsX 0x9234),
      ([0x39, 0x34, 0x92], .andAbsY 0x9234), ([0x21, 0xC7], .andIndX 0xC7), ([0x31, 0xC7], .andIndY 0xC7),
      ([0x49, 0xC7], .eorImm 0xC7), ([0x45, 0xC7], .eorZp 0xC7), ([0x55, 0xC7], .eorZpX 0xC7),
      ([0x4D, 0x34, 0x92], .eorAbs 0x9234), ([0x5D, 0x34, 0x92], .eorAbsX 0x9234),
      ([0x59, 0x34, 0x92], .eorAbsY 0x9234), ([0x41, 0xC7], .eorIndX 0xC7), ([0x51, 0xC7], .eorIndY 0xC7),
      ([0x09, 0xC7], .oraImm 0xC7), ([0x05, 0xC7], .oraZp 0xC7), ([0x15, 0xC7], .oraZpX 0xC7),
      ([0x0D, 0x34, 0x92], .oraAbs 0x9234), ([0x1D, 0x34, 0x92], .oraAbsX 0x9234),
      ([0x19, 0x34, 0x92], .oraAbsY 0x9234), ([0x01, 0xC7], .oraIndX 0xC7), ([0x11, 0xC7], .oraIndY 0xC7)] = true := by decide +kernel
/-- 43_logical.md. -/
theorem test_decode_logical_2 : decodes Config.default [
      ([0x24, 0xC7], .bitZp 0xC7), ([0x2C, 0x34, 0x92], .bitAbs 0x9234)] = true := by decide +kernel
/-- 44_arithmetic.md. -/
theorem test_decode_arithmetic_1 : decodes Config.default [
      ([0x69, 0xC7], .adcImm 0xC7), ([0x65, 0xC7], .adcZp 0xC7), ([0x75, 0xC7], .adcZpX 0xC7),
      ([0x6D, 0x34, 0x92], .adcAbs 0x9234), ([0x7D, 0x34, 0x92], .adcAbsX 0x9234),
      ([0x79, 0x34, 0x92], .adcAbsY 0x9234), ([0x61, 0xC7], .adcIndX 0xC7), ([0x71, 0xC7], .adcIndY 0xC7),
      ([0xE9, 0xC7], .sbcImm 0xC7), ([0xE5, 0xC7], .sbcZp 0xC7), ([0xF5, 0xC7], .sbcZpX 0xC7),
      ([0xED, 0x34, 0x92], .sbcAbs 0x9234), ([0xFD, 0x34, 0x92], .sbcAbsX 0x9234),
      ([0xF9, 0x34, 0x92], .sbcAbsY 0x9234), ([0xE1, 0xC7], .sbcIndX 0xC7), ([0xF1, 0xC7], .sbcIndY 0xC7),
      ([0xC9, 0xC7], .cmpImm 0xC7), ([0xC5, 0xC7], .cmpZp 0xC7), ([0xD5, 0xC7], .cmpZpX 0xC7),
      ([0xCD, 0x34, 0x92], .cmpAbs 0x9234), ([0xDD, 0x34, 0x92], .cmpAbsX 0x9234),
      ([0xD9, 0x34, 0x92], .cmpAbsY 0x9234), ([0xC1, 0xC7], .cmpIndX 0xC7), ([0xD1, 0xC7], .cmpIndY 0xC7)] = true := by decide +kernel
/-- 44_arithmetic.md. -/
theorem test_decode_arithmetic_2 : decodes Config.default [
      ([0xE0, 0xC7], .cpxImm 0xC7), ([0xE4, 0xC7], .cpxZp 0xC7), ([0xEC, 0x34, 0x92], .cpxAbs 0x9234),
      ([0xC0, 0xC7], .cpyImm 0xC7), ([0xC4, 0xC7], .cpyZp 0xC7), ([0xCC, 0x34, 0x92], .cpyAbs 0x9234)] = true := by decide +kernel
/-- 45_increment_decrement.md. -/
theorem test_decode_increment_decrement : decodes Config.default [
      ([0xE6, 0xC7], .incZp 0xC7), ([0xF6, 0xC7], .incZpX 0xC7), ([0xEE, 0x34, 0x92], .incAbs 0x9234),
      ([0xFE, 0x34, 0x92], .incAbsX 0x9234), ([0xE8], .inx), ([0xC8], .iny), ([0xC6, 0xC7], .decZp 0xC7),
      ([0xD6, 0xC7], .decZpX 0xC7), ([0xCE, 0x34, 0x92], .decAbs 0x9234), ([0xDE, 0x34, 0x92], .decAbsX 0x9234),
      ([0xCA], .dex), ([0x88], .dey)] = true := by decide +kernel
/-- 46_shift_rotate.md. -/
theorem test_decode_shift_rotate : decodes Config.default [
      ([0x0A], .aslAcc), ([0x06, 0xC7], .aslZp 0xC7), ([0x16, 0xC7], .aslZpX 0xC7),
      ([0x0E, 0x34, 0x92], .aslAbs 0x9234), ([0x1E, 0x34, 0x92], .aslAbsX 0x9234), ([0x4A], .lsrAcc),
      ([0x46, 0xC7], .lsrZp 0xC7), ([0x56, 0xC7], .lsrZpX 0xC7), ([0x4E, 0x34, 0x92], .lsrAbs 0x9234),
      ([0x5E, 0x34, 0x92], .lsrAbsX 0x9234), ([0x2A], .rolAcc), ([0x26, 0xC7], .rolZp 0xC7),
      ([0x36, 0xC7], .rolZpX 0xC7), ([0x2E, 0x34, 0x92], .rolAbs 0x9234), ([0x3E, 0x34, 0x92], .rolAbsX 0x9234),
      ([0x6A], .rorAcc), ([0x66, 0xC7], .rorZp 0xC7), ([0x76, 0xC7], .rorZpX 0xC7),
      ([0x6E, 0x34, 0x92], .rorAbs 0x9234), ([0x7E, 0x34, 0x92], .rorAbsX 0x9234)] = true := by decide +kernel
/-- 47_branch.md. -/
theorem test_decode_branch : decodes Config.default [
      ([0x90, 0xC7], .bcc 0xC7), ([0xB0, 0xC7], .bcs 0xC7), ([0xF0, 0xC7], .beq 0xC7), ([0x30, 0xC7], .bmi 0xC7),
      ([0xD0, 0xC7], .bne 0xC7), ([0x10, 0xC7], .bpl 0xC7), ([0x50, 0xC7], .bvc 0xC7), ([0x70, 0xC7], .bvs 0xC7)] = true := by decide +kernel
/-- 48_jump_call.md. -/
theorem test_decode_jump_call : decodes Config.default [
      ([0x4C, 0x34, 0x92], .jmpAbs 0x9234), ([0x6C, 0x34, 0x92], .jmpInd 0x9234),
      ([0x20, 0x34, 0x92], .jsr 0x9234), ([0x60], .rts)] = true := by decide +kernel
/-- 49_flag_interrupt_misc.md. -/
theorem test_decode_flag_interrupt_misc : decodes Config.default [
      ([0x18], .clc), ([0xD8], .cld), ([0x58], .cli), ([0xB8], .clv), ([0x38], .sec), ([0xF8], .sed),
      ([0x78], .sei), ([0x00], .brk), ([0x40], .rti), ([0xEA], .nop)] = true := by decide +kernel
/-- RES, bound to 0x02 (R166). -/
theorem test_decode_res : decodes { Config.default with resOpcode := some 0x02 } [([0x02], .res)] = true := by
  decide +kernel
/-- Rejections, each by its name. -/
theorem test_decode_rejects :
    decode Config.default [] = .rejected .noByte ∧
    decode Config.default [0xFF] = .rejected (.unmapped 0xFF) ∧
    decode Config.default [0xA9] = .rejected (.truncated .lda .immediate) ∧
    decode Config.default [0xAD, 0x00] = .rejected (.truncated .lda .absolute) := by decide +kernel
/-- The host's table words: LDA # with its operand bits zero, STA absolute with an operand, BRK, an empty byte. -/
theorem test_decodeTableWord :
    decodeTableWord 8 0xA9 = some (.ldaImm 0x00) ∧ decodeTableWord 24 0x92348D = some (.staAbs 0x9234) ∧
    decodeTableWord 8 0x00 = some .brk ∧ decodeTableWord 8 0x02 = none := by decide +kernel
/-- After reset, a word placed where the step fetches is the instruction the very next step runs. -/
theorem test_withFetchWord :
    after (step (State.reset.withFetchWord 16 0x10A9)) (fun t => t.a == 0x10 && t.pc == 0x0002) = true ∧
    after (step (State.reset.withFetchWord 8 0xE8)) (fun t => t.x == 0x01 && t.clock == 9) = true := by decide +kernel
/-- The encoder writes the bytes of the tables. -/
theorem test_encode :
    encode Config.default (.staAbsX 0x0400) = some [0x9D, 0x00, 0x04] ∧
    encode Config.default (.jmpInd 0x02FF) = some [0x6C, 0xFF, 0x02] ∧
    encode Config.default .res = none := by decide +kernel
/-- Lengths (R75): BRK is 2 bytes long by default, NOP 1. -/
theorem test_length :
    Instr.brk.length Config.default = 2 ∧ Instr.nop.length Config.default = 1 ∧
    (Instr.jsr 0x0300).length Config.default = 3 := by decide +kernel

/-! ## Single steps (95_test_vectors.md; each name carries its vector) -/

theorem test_T1_lda_zpx_wraps :
    after (step (poke { start 0x0200 [0xB5, 0xF0] with x := 0x20 } [(0x0010, 0x77)]))
      (fun t => t.a == 0x77 && t.clock == 11) = true := by
  decide +kernel
theorem test_T2_ldx_zpy_wraps :
    after (step (poke { start 0x0200 [0xB6, 0xFF] with y := 0x02 } [(0x0001, 0x99)]))
      (fun t => t.x == 0x99 && pack t.flags == 0xB0 && t.clock == 11) = true := by
  decide +kernel
theorem test_T4_lda_absx_crosses :
    after (step (poke { start 0x0200 [0xBD, 0xFF, 0x12] with x := 0x01 } [(0x1300, 0x42)]))
      (fun t => t.a == 0x42 && t.clock == 12) = true := by
  decide +kernel
theorem test_T5_lda_absx_wraps :
    after (step (poke { start 0x0200 [0xBD, 0xFF, 0xFF] with x := 0x01 } [(0x0000, 0x33)]))
      (fun t => t.a == 0x33 && t.clock == 12) = true := by
  decide +kernel
theorem test_T6_lda_absy_crosses :
    after (step (poke { start 0x0200 [0xB9, 0xFF, 0x12] with y := 0x01 } [(0x1300, 0x7F)]))
      (fun t => t.a == 0x7F && t.clock == 12) = true := by
  decide +kernel
theorem test_T7_sta_absy_always_pays :
    after (step { start 0x0200 [0x99, 0x00, 0x12] with y := 0x01, a := 0x09 })
      (fun t => t.mem.read 0x1201 == 0x09 && t.clock == 12) = true := by
  decide +kernel
theorem test_T8_sta_absx_always_pays :
    after (step { start 0x0200 [0x9D, 0xFF, 0x12] with a := 0x5A })
      (fun t => pack t.flags == 0x30 && t.mem.read 0x12FF == 0x5A && t.clock == 12) = true := by
  decide +kernel
theorem test_T9_lda_indx_pointer_wraps :
    after (step (poke (start 0x0200 [0xA1, 0xFF]) [(0x00FF, 0x34), (0x0000, 0x12), (0x1234, 0xAB)]))
      (fun t => t.a == 0xAB && t.clock == 13) = true := by
  decide +kernel
theorem test_T10_lda_indx_index_wraps :
    after (step (poke { start 0x0200 [0xA1, 0x80] with x := 0x90 } [(0x0011, 0x30), (0x3000, 0x5C)]))
      (fun t => t.a == 0x5C && t.clock == 13) = true := by
  decide +kernel
theorem test_T11_lda_indy_crosses :
    after (step (poke { start 0x0200 [0xB1, 0x20] with y := 0x01 } [(0x0020, 0xFF), (0x0021, 0x12), (0x1300, 0x80)]))
      (fun t => t.a == 0x80 && t.clock == 13) = true := by
  decide +kernel
theorem test_T14_lda_indy_pointer_wraps :
    after (step (poke (start 0x0200 [0xB1, 0xFF]) [(0x0000, 0x04), (0x0400, 0x11)]))
      (fun t => t.a == 0x11 && t.clock == 12) = true := by
  decide +kernel
theorem test_T13_sta_indy_always_pays :
    after (step (poke { start 0x0200 [0x91, 0x20] with y := 0x01, a := 0x66 } [(0x0021, 0x12)]))
      (fun t => t.mem.read 0x1201 == 0x66 && t.clock == 13) = true := by
  decide +kernel
theorem test_T15_inc_absx_always_pays :
    after (step (poke (start 0x0200 [0xFE, 0xFF, 0x12]) [(0x12FF, 0x41)]))
      (fun t => t.mem.read 0x12FF == 0x42 && t.clock == 14) = true := by
  decide +kernel
theorem test_T16_jmp_ind_wraps_in_page :
    after (step (poke (start 0x0200 [0x6C, 0xFF, 0x03]) [(0x0300, 0x04), (0x0400, 0x05)]))
      (fun t => t.pc == 0x0400 && t.clock == 12) = true := by
  decide +kernel
theorem test_T17_jmp_ind_unwrapped :
    after (step (poke { start 0x0200 [0x6C, 0xFF, 0x03] with cfg := { Config.default with jmpIndPageWrap := false } } [(0x0300, 0x04), (0x0400, 0x05)]))
      (fun t => t.pc == 0x0500 && t.clock == 12) = true := by
  decide +kernel
theorem test_T18_lda_imm_zero :
    after (step (start 0x0200 [0xA9, 0x00]))
      (fun t => t.a == 0x00 && pack t.flags == 0x32 && t.clock == 9) = true := by
  decide +kernel
theorem test_T19_lda_imm_negative :
    after (step (start 0x0200 [0xA9, 0x80]))
      (fun t => t.a == 0x80 && pack t.flags == 0xB0 && t.clock == 9) = true := by
  decide +kernel
theorem test_T20_lda_abs :
    after (step { start 0x0200 [0xAD, 0x00, 0x04] with a := 0x01 })
      (fun t => t.a == 0x00 && pack t.flags == 0x32 && t.clock == 11) = true := by
  decide +kernel
theorem test_T22_ldy_imm :
    after (step (start 0x0200 [0xA0, 0x7F]))
      (fun t => t.y == 0x7F && pack t.flags == 0x30 && t.clock == 9) = true := by
  decide +kernel
theorem test_T23_ldx_absy :
    after (step { start 0x0200 [0xBE, 0x00, 0x12] with y := 0x02, x := 0x07 })
      (fun t => t.x == 0x00 && pack t.flags == 0x32 && t.clock == 11) = true := by
  decide +kernel
theorem test_T24_ldy_zpx_wraps :
    after (step (poke { start 0x0200 [0xB4, 0x10] with x := 0xF5 } [(0x0005, 0x80)]))
      (fun t => t.y == 0x80 && pack t.flags == 0xB0 && t.clock == 11) = true := by
  decide +kernel
theorem test_T25_tax :
    after (step { start 0x0200 [0xAA] with x := 0x55 })
      (fun t => t.x == 0x00 && pack t.flags == 0x32 && t.clock == 9) = true := by
  decide +kernel
theorem test_T26_tay :
    after (step { start 0x0200 [0xA8] with a := 0x90 })
      (fun t => t.y == 0x90 && pack t.flags == 0xB0 && t.clock == 9) = true := by
  decide +kernel
theorem test_T27_txa :
    after (step { start 0x0200 [0x8A] with a := 0x12 })
      (fun t => t.a == 0x00 && pack t.flags == 0x32 && t.clock == 9) = true := by
  decide +kernel
theorem test_T28_tya :
    after (step { start 0x0200 [0x98] with y := 0xFF })
      (fun t => t.a == 0xFF && pack t.flags == 0xB0 && t.clock == 9) = true := by
  decide +kernel
theorem test_T29_tsx :
    after (step (start 0x0200 [0xBA]))
      (fun t => t.x == 0xFD && pack t.flags == 0xB0 && t.clock == 9) = true := by
  decide +kernel
theorem test_T30_txs_sets_no_flags :
    after (step { start 0x0200 [0x9A] with flags := { State.reset.flags with n := true } })
      (fun t => t.sp == 0x00 && pack t.flags == 0xB0 && t.clock == 9) = true := by
  decide +kernel
theorem test_T31_sta_zp_sets_no_flags :
    after (step (poke (start 0x0200 [0x85, 0x10]) [(0x0010, 0x09)]))
      (fun t => pack t.flags == 0x30 && t.mem.read 0x0010 == 0x00 && t.clock == 10) = true := by
  decide +kernel
theorem test_T32_stx_zpy_wraps :
    after (step { start 0x0200 [0x96, 0xFF] with x := 0xAB, y := 0x02 })
      (fun t => t.mem.read 0x0001 == 0xAB && t.clock == 11) = true := by
  decide +kernel
theorem test_T33_sty_abs :
    after (step { start 0x0200 [0x8C, 0x00, 0x04] with y := 0x3C })
      (fun t => t.mem.read 0x0400 == 0x3C && t.clock == 11) = true := by
  decide +kernel
theorem test_T34_pha_wraps :
    after (step { start 0x0200 [0x48] with a := 0x42, sp := 0x00 })
      (fun t => t.sp == 0xFF && t.mem.read 0x0100 == 0x42 && t.clock == 10) = true := by
  decide +kernel
theorem test_T35_php :
    after (step { start 0x0200 [0x08] with flags := { State.reset.flags with c := true, n := true } })
      (fun t => t.sp == 0xFC && t.mem.read 0x01FD == 0xB1 && t.clock == 10) = true := by
  decide +kernel
theorem test_T36_php_without_b :
    after (step { start 0x0200 [0x08] with flags := { State.reset.flags with b := false } })
      (fun t => t.mem.read 0x01FD == 0x20 && t.clock == 10) = true := by
  decide +kernel
theorem test_T37_pla_wraps :
    after (step (poke { start 0x0200 [0x68] with sp := 0xFF } [(0x0100, 0x80)]))
      (fun t => t.a == 0x80 && t.sp == 0x00 && pack t.flags == 0xB0 && t.clock == 11) = true := by
  decide +kernel
theorem test_T39_plp_leaves_b :
    after (step { start 0x0200 [0x28] with sp := 0xFC, flags := { State.reset.flags with c := true, z := true, n := true } })
      (fun t => t.sp == 0xFD && pack t.flags == 0x30 && t.clock == 11) = true := by
  decide +kernel
theorem test_T40_and :
    after (step { start 0x0200 [0x29, 0x0F] with a := 0xF0 })
      (fun t => t.a == 0x00 && pack t.flags == 0x32 && t.clock == 9) = true := by
  decide +kernel
theorem test_T41_eor :
    after (step { start 0x0200 [0x49, 0xFF] with a := 0x0F })
      (fun t => t.a == 0xF0 && pack t.flags == 0xB0 && t.clock == 9) = true := by
  decide +kernel
theorem test_T42_ora :
    after (step { start 0x0200 [0x09, 0x80] with a := 0x01 })
      (fun t => t.a == 0x81 && pack t.flags == 0xB0 && t.clock == 9) = true := by
  decide +kernel
theorem test_T43_bit_zp :
    after (step (poke { start 0x0200 [0x24, 0x10] with a := 0x01 } [(0x0010, 0xC0)]))
      (fun t => t.a == 0x01 && pack t.flags == 0xF2 && t.clock == 10) = true := by
  decide +kernel
theorem test_T44_bit_abs :
    after (step (poke { start 0x0200 [0x2C, 0x00, 0x04] with a := 0xFF } [(0x0400, 0x3F)]))
      (fun t => pack t.flags == 0x30 && t.clock == 11) = true := by
  decide +kernel
theorem test_T45_adc_no_overflow :
    after (step { start 0x0200 [0x69, 0x01] with a := 0x01 })
      (fun t => t.a == 0x02 && pack t.flags == 0x30 && t.clock == 9) = true := by
  decide +kernel
theorem test_T49_adc_carry_in_and_out :
    after (step { start 0x0200 [0x69, 0xFF] with a := 0xFF, flags := { State.reset.flags with c := true } })
      (fun t => t.a == 0xFF && pack t.flags == 0xB1 && t.clock == 9) = true := by
  decide +kernel
theorem test_T54_sbc_overflow :
    after (step { start 0x0200 [0xE9, 0xB0] with a := 0x50, flags := { State.reset.flags with c := true } })
      (fun t => t.a == 0xA0 && pack t.flags == 0xF0 && t.clock == 9) = true := by
  decide +kernel
theorem test_T55_sbc_borrow_in :
    after (step { start 0x0200 [0xE9, 0x00] with a := 0x00 })
      (fun t => t.a == 0xFF && pack t.flags == 0xB0 && t.clock == 9) = true := by
  decide +kernel
theorem test_T51_adc_binary_with_d :
    after (step { start 0x0200 [0x69, 0x01] with a := 0x01, flags := { State.reset.flags with d := true } })
      (fun t => t.a == 0x02 && pack t.flags == 0x38 && t.clock == 9) = true := by
  decide +kernel
theorem test_T62_cmp_below :
    after (step { start 0x0200 [0xC9, 0x20] with a := 0x10 })
      (fun t => t.a == 0x10 && pack t.flags == 0xB0 && t.clock == 9) = true := by
  decide +kernel
theorem test_T65_cmp_above :
    after (step { start 0x0200 [0xC9, 0x7F] with a := 0x80 })
      (fun t => pack t.flags == 0x31 && t.clock == 9) = true := by
  decide +kernel
theorem test_T66_cpx_equal :
    after (step { start 0x0200 [0xE0, 0x05] with x := 0x05 })
      (fun t => t.x == 0x05 && pack t.flags == 0x33 && t.clock == 9) = true := by
  decide +kernel
theorem test_T67_cpy_below :
    after (step { start 0x0200 [0xC0, 0x06] with y := 0x05 })
      (fun t => pack t.flags == 0xB0 && t.clock == 9) = true := by
  decide +kernel
theorem test_T68_inc_zp_wraps :
    after (step (poke { start 0x0200 [0xE6, 0x10] with flags := { State.reset.flags with c := true } } [(0x0010, 0xFF)]))
      (fun t => pack t.flags == 0x33 && t.mem.read 0x0010 == 0x00 && t.clock == 12) = true := by
  decide +kernel
theorem test_T69_dec_abs_wraps :
    after (step (start 0x0200 [0xCE, 0x00, 0x04]))
      (fun t => pack t.flags == 0xB0 && t.mem.read 0x0400 == 0xFF && t.clock == 13) = true := by
  decide +kernel
theorem test_T70_dec_zpx_wraps :
    after (step (poke { start 0x0200 [0xD6, 0xFF] with x := 0x02 } [(0x0001, 0x01)]))
      (fun t => pack t.flags == 0x32 && t.mem.read 0x0001 == 0x00 && t.clock == 13) = true := by
  decide +kernel
theorem test_T71_inx :
    after (step { start 0x0200 [0xE8] with x := 0x7F })
      (fun t => t.x == 0x80 && pack t.flags == 0xB0 && t.clock == 9) = true := by
  decide +kernel
theorem test_T72_iny :
    after (step { start 0x0200 [0xC8] with y := 0xFF })
      (fun t => t.y == 0x00 && pack t.flags == 0x32 && t.clock == 9) = true := by
  decide +kernel
theorem test_T73_dex :
    after (step (start 0x0200 [0xCA]))
      (fun t => t.x == 0xFF && pack t.flags == 0xB0 && t.clock == 9) = true := by
  decide +kernel
theorem test_T74_dey :
    after (step { start 0x0200 [0x88] with y := 0x01 })
      (fun t => t.y == 0x00 && pack t.flags == 0x32 && t.clock == 9) = true := by
  decide +kernel
theorem test_T75_asl_acc :
    after (step { start 0x0200 [0x0A] with a := 0x80 })
      (fun t => t.a == 0x00 && pack t.flags == 0x33 && t.clock == 9) = true := by
  decide +kernel
theorem test_T76_asl_zp :
    after (step (poke (start 0x0200 [0x06, 0x10]) [(0x0010, 0x41)]))
      (fun t => pack t.flags == 0xB0 && t.mem.read 0x0010 == 0x82 && t.clock == 12) = true := by
  decide +kernel
theorem test_T78_lsr_acc_clears_n :
    after (step { start 0x0200 [0x4A] with a := 0xFF, flags := { State.reset.flags with n := true } })
      (fun t => t.a == 0x7F && pack t.flags == 0x31 && t.clock == 9) = true := by
  decide +kernel
theorem test_T79_lsr_zpx :
    after (step (poke { start 0x0200 [0x56, 0x10] with x := 0x01 } [(0x0011, 0x80)]))
      (fun t => pack t.flags == 0x30 && t.mem.read 0x0011 == 0x40 && t.clock == 13) = true := by
  decide +kernel
theorem test_T81_rol_acc_takes_carry :
    after (step { start 0x0200 [0x2A] with a := 0x40, flags := { State.reset.flags with c := true } })
      (fun t => t.a == 0x81 && pack t.flags == 0xB0 && t.clock == 9) = true := by
  decide +kernel
theorem test_T82_rol_abs :
    after (step (poke { start 0x0200 [0x2E, 0x00, 0x04] with flags := { State.reset.flags with c := true } } [(0x0400, 0xFF)]))
      (fun t => pack t.flags == 0xB1 && t.mem.read 0x0400 == 0xFF && t.clock == 13) = true := by
  decide +kernel
theorem test_T83_ror_acc_takes_carry :
    after (step { start 0x0200 [0x6A] with a := 0x01, flags := { State.reset.flags with c := true } })
      (fun t => t.a == 0x80 && pack t.flags == 0xB1 && t.clock == 9) = true := by
  decide +kernel
theorem test_T85_ror_absx_always_pays :
    after (step (poke { start 0x0200 [0x7E, 0x00, 0x10] with x := 0x01, flags := { State.reset.flags with c := true } } [(0x1001, 0x02)]))
      (fun t => pack t.flags == 0xB0 && t.mem.read 0x1001 == 0x81 && t.clock == 14) = true := by
  decide +kernel
theorem test_T87_bcs_pc_wraps :
    after (step { start 0xFFFE [0xB0, 0x10] with flags := { State.reset.flags with c := true } })
      (fun t => t.pc == 0x0010 && t.clock == 10) = true := by
  decide +kernel
theorem test_T88_beq_not_taken :
    after (step (start 0x0200 [0xF0, 0x10]))
      (fun t => t.pc == 0x0202 && t.clock == 9) = true := by
  decide +kernel
theorem test_T89_bmi_backwards :
    after (step { start 0x0210 [0x30, 0xEE] with flags := { State.reset.flags with n := true } })
      (fun t => t.pc == 0x0200 && t.clock == 10) = true := by
  decide +kernel
theorem test_T90_bne_to_itself :
    after (step (start 0x0200 [0xD0, 0xFE]))
      (fun t => t.pc == 0x0200 && t.clock == 10) = true := by
  decide +kernel
theorem test_T92_bne_crosses :
    after (step (start 0x0280 [0xD0, 0x7F]))
      (fun t => t.pc == 0x0301 && t.clock == 11) = true := by
  decide +kernel
theorem test_T93_bpl_crosses_back :
    after (step (start 0x0200 [0x10, 0x80]))
      (fun t => t.pc == 0x0182 && t.clock == 11) = true := by
  decide +kernel
theorem test_T94_bvc_not_taken :
    after (step { start 0x0300 [0x50, 0x05] with flags := { State.reset.flags with v := true } })
      (fun t => t.pc == 0x0302 && t.clock == 9) = true := by
  decide +kernel
theorem test_T95_bvs_taken :
    after (step { start 0x0300 [0x70, 0x05] with flags := { State.reset.flags with v := true } })
      (fun t => t.pc == 0x0307 && t.clock == 10) = true := by
  decide +kernel
theorem test_T96_bcc_at_the_top :
    after (step (start 0xFFFE [0x90, 0x00]))
      (fun t => t.pc == 0x0000 && t.clock == 10) = true := by
  decide +kernel
theorem test_T97_jmp_abs :
    after (step (start 0x0200 [0x4C, 0x34, 0x12]))
      (fun t => t.sp == 0xFD && t.pc == 0x1234 && t.clock == 10) = true := by
  decide +kernel
theorem test_T99_jsr :
    after (step (start 0x0200 [0x20, 0x00, 0x03]))
      (fun t => t.sp == 0xFB && t.pc == 0x0300 && t.mem.read 0x01FD == 0x02 && t.mem.read 0x01FC == 0x02 && t.clock == 13) = true := by
  decide +kernel
theorem test_T100_jsr_wraps :
    after (step { start 0x0200 [0x20, 0x00, 0x03] with sp := 0x00 })
      (fun t => t.sp == 0xFE && t.mem.read 0x0100 == 0x02 && t.mem.read 0x01FF == 0x02 && t.clock == 13) = true := by
  decide +kernel
theorem test_T101_rts :
    after (step (poke { start 0x0200 [0x60] with sp := 0xFB } [(0x01FC, 0x02), (0x01FD, 0x02)]))
      (fun t => t.sp == 0xFD && t.pc == 0x0203 && t.clock == 13) = true := by
  decide +kernel
theorem test_T103_rts_wraps :
    after (step (poke { start 0x0200 [0x60] with sp := 0xFE } [(0x01FF, 0x04), (0x0100, 0x02)]))
      (fun t => t.sp == 0x00 && t.pc == 0x0205 && t.clock == 13) = true := by
  decide +kernel
theorem test_T104_clc :
    after (step { start 0x0200 [0x18] with flags := { State.reset.flags with c := true } })
      (fun t => pack t.flags == 0x30 && t.clock == 9) = true := by
  decide +kernel
theorem test_T105_cld :
    after (step { start 0x0200 [0xD8] with flags := { State.reset.flags with d := true } })
      (fun t => pack t.flags == 0x30 && t.clock == 9) = true := by
  decide +kernel
theorem test_T106_cli :
    after (step { start 0x0200 [0x58] with flags := { State.reset.flags with i := true } })
      (fun t => pack t.flags == 0x30 && t.clock == 9) = true := by
  decide +kernel
theorem test_T107_clv :
    after (step { start 0x0200 [0xB8] with flags := { State.reset.flags with v := true } })
      (fun t => pack t.flags == 0x30 && t.clock == 9) = true := by
  decide +kernel
theorem test_T108_sec :
    after (step (start 0x0200 [0x38]))
      (fun t => pack t.flags == 0x31 && t.clock == 9) = true := by
  decide +kernel
theorem test_T109_sed :
    after (step (start 0x0200 [0xF8]))
      (fun t => pack t.flags == 0x38 && t.clock == 9) = true := by
  decide +kernel
theorem test_T110_sei :
    after (step (start 0x0200 [0x78]))
      (fun t => pack t.flags == 0x34 && t.clock == 9) = true := by
  decide +kernel
theorem test_T111_brk :
    after (step (poke { start 0x0204 [0x00, 0xEA] with flags := { State.reset.flags with c := true, n := true } } [(0xFFFF, 0x05)]))
      (fun t => t.sp == 0xFA && t.pc == 0x0500 && pack t.flags == 0xB5 && t.mem.read 0x01FD == 0x02 && t.mem.read 0x01FC == 0x06 && t.mem.read 0x01FB == 0xB1 && t.clock == 14) = true := by
  decide +kernel
theorem test_T113_brk_without_signature :
    after (step (poke { start 0x0204 [0x00] with cfg := { Config.default with brkSignature := false } } [(0xFFFF, 0x05)]))
      (fun t => t.pc == 0x0500 && t.mem.read 0x01FD == 0x02 && t.mem.read 0x01FC == 0x05 && t.mem.read 0x01FB == 0x30 && t.clock == 14) = true := by
  decide +kernel
theorem test_T115_rti :
    after (step (poke { start 0x0200 [0x40] with sp := 0xFA, flags := { State.reset.flags with b := false } } [(0x01FB, 0xFF), (0x01FC, 0x34), (0x01FD, 0x12)]))
      (fun t => t.sp == 0xFD && t.pc == 0x1234 && pack t.flags == 0xEF && t.clock == 13) = true := by
  decide +kernel
theorem test_T116_nop :
    after (step (start 0x0200 [0xEA]))
      (fun t => t.pc == 0x0201 && t.clock == 9) = true := by
  decide +kernel
theorem test_T117_nop_skips :
    after (step { start 0x0200 [0xEA] with cfg := { Config.default with nopSkipsByte := true } })
      (fun t => t.pc == 0x0202 && t.clock == 9) = true := by
  decide +kernel
theorem test_T118_res :
    after (step (poke { start 0x0200 [0x02] with a := 0x55, x := 0x03, y := 0x04, sp := 0x10, flags := { State.reset.flags with c := true, d := true }, cfg := { Config.default with resOpcode := some 0x02 } } [(0xFFFD, 0x02)]))
      (fun t => t.a == 0x00 && t.x == 0x00 && t.y == 0x00 && t.sp == 0xFD && t.pc == 0x0200 && pack t.flags == 0x30 && t.clock == 15) = true := by
  decide +kernel
theorem test_T119_unmapped :
    after (step (start 0x0200 [0x02]))
      (fun t => t.pc == 0x0201 && t.diag == [(0x0200, 0x02)] && t.clock == 8) = true := by
  decide +kernel
theorem test_T52_adc_refused :
    refuses (step { start 0x0200 [0x69, 0x01] with
      a := 0x01, flags := { State.reset.flags with d := true },
      cfg := { Config.default with decimalPolicy := .refuse } }) .decimalModeUnmodelled = true := by
  decide +kernel
theorem test_T121_step_before_reset :
    faults (step (State.constructed Config.default 1 2 3 4 5 State.reset.flags [])) .notReset = true := by decide +kernel
/-- T122 and E4: reset of a constructed core, with the default and with other parameters. -/
theorem test_T122_reset :
    let m := Memory.writeBytes [] 0xFFFC [0x00, 0x02]
    let t := apiReset (State.constructed Config.default 1 2 3 4 5 State.reset.flags m)
    t.pc = 0x0200 ∧ t.sp = 0xFD ∧ t.a = 0x00 ∧ pack t.flags = 0x30 ∧ t.clock = 7 ∧ t.ready = true := by decide +kernel
theorem test_E4_reset_parameters :
    let cfg := { Config.default with resetSp := 0xFF, resetCzvn := ⟨true, true, true, true⟩, resetB := false }
    let m := Memory.writeBytes [] 0xFFFC [0x34, 0x12]
    let t := apiReset (State.constructed cfg 1 2 3 4 5 State.reset.flags m)
    t.pc = 0x1234 ∧ t.sp = 0xFF ∧ pack t.flags = 0xE3 := by decide +kernel
/-- A supplied table: NOP at 0x02 runs, and 0xEA, which it leaves empty, is skipped and logged. -/
theorem test_supplied_dispatch :
    let s : State := { start 0x0200 [0x02, 0xEA] with
      cfg := { Config.default with dispatch := [⟨0x02, .nop, .implied, rfl⟩] } }
    after (step s) (fun t => t.clock == 9 && t.diag == [] &&
      after (step t) (fun u => u.clock == 10 && u.diag == [(0x0201, 0xEA)])) = true := by
  decide +kernel
/-- R184: a reset ends a stopped run; only clock, log and memory carry over. -/
theorem test_reset_after_fault :
    let s := apiExecute 1 (State.constructed Config.default 1 2 3 4 5 State.reset.flags [])
    s.mark = .faulted .notReset ∧ (apiReset s).mark = .running ∧ (apiReset s).clock = 7 := by
  decide +kernel
/-- Memory's canonical form: writing the byte an unlisted address reads as unlists the address. -/
theorem test_memory_canonical :
    Memory.write (Memory.write [] 0x0010 0x05) 0x0010 0x00 = [] ∧
    Memory.write (Memory.write [] 0x0020 0x05) 0x0010 0x06 = [(0x10, 0x06), (0x20, 0x05)] ∧
    Memory.wf [(0x20, 0x05), (0x10, 0x06)] = false ∧ Memory.wf [(0x10, 0x00)] = false ∧
    Memory.wf [(0x10000, 0x01)] = false := by decide +kernel
/-- Host interface (R21-R25): execute stops at the fault and marks the state; words wrap at the top of memory; a register
read before reset is refused, and a write is truncated. -/
theorem test_host_interface :
    (apiExecute 3 (State.constructed Config.default 1 2 3 4 5 State.reset.flags [])).mark = .faulted .notReset ∧
    apiReadWord (apiWriteWord State.reset 0xFFFF 0x1234) 0xFFFF = 0x1234 ∧
    apiReadByte (apiWriteWord State.reset 0xFFFF 0x1234) 0x0000 = 0x12 ∧
    apiReadReg (State.constructed Config.default 1 2 3 4 5 State.reset.flags []) .a = none ∧
    apiReadReg (apiWriteReg State.reset .sp 0x1FE) .sp = some 0xFE ∧
    apiReadRange (apiLoad State.reset 0xFFFF [0x01, 0x02]) 0xFFFF 2 = [0x01, 0x02] := by decide +kernel

/-! ## Witnesses: every hypothesis of every statement is met by a concrete state and operands -/

theorem witness_DecodeOfEncode :
    Instr.wf Config.default (.ldaImm 0xFF) = true ∧ Instr.wf Config.default (.jmpInd 0xFFFF) = true ∧
    Instr.wf { Config.default with resOpcode := some 0x02 } .res = true := by decide +kernel
theorem witness_DecodedBytesSpell :
    decode Config.default [0xA9, 0x10, 0xEE] = .instr (.ldaImm 0x10) [0xEE] ∧
    decode Config.default [0x20, 0x00, 0x03] = .instr (.jsr 0x0300) [] ∧
    decode Config.default [0x60, 0x77] = .instr .rts [0x77] := by decide +kernel
theorem witness_OnlyResOpcodeReachesRes :
    dispatchOf { Config.default with resOpcode := some 0x02 } 0x02 = some (.res, .implied) ∧
    dispatchOf { Config.default with resOpcode := some 0xA9 } 0xA9 = some (.lda, .immediate) ∧
    dispatchOf { Config.default with dispatch := [⟨0x02, .res, .implied, rfl⟩] } 0x02 = none := by decide +kernel
theorem witness_StepRuns :
    (start 0xFFFF [0xA9, 0x10]).mark = .running ∧ (start 0xFFFF [0xA9, 0x10]).ready = true ∧
    decode Config.default [(start 0xFFFF [0xA9, 0x10]).mem.read 0xFFFF, (start 0xFFFF [0xA9, 0x10]).mem.read 0x0000,
      (start 0xFFFF [0xA9, 0x10]).mem.read 0x0001] = .instr (.ldaImm 0x10) [0x00] := by decide +kernel
theorem witness_Unmapped :
    (start 0xFFFF [0x02]).mark = .running ∧ (start 0xFFFF [0x02]).ready = true ∧
    dispatchOf (start 0xFFFF [0x02]).cfg ((start 0xFFFF [0x02]).mem.read (start 0xFFFF [0x02]).pc) = none := by
  decide +kernel
theorem witness_StepBeforeReset :
    (State.constructed Config.default 1 2 3 4 5 State.reset.flags []).mark = .running ∧
    (State.constructed Config.default 1 2 3 4 5 State.reset.flags []).ready = false := ⟨rfl, rfl⟩
theorem witness_StepStopsOnly :
    (start 0x0200 [0x69, 0x01]).mark = .running ∧ (start 0x0200 [0x69, 0x01]).ready = true := ⟨rfl, rfl⟩
/-- For the statements about a step that answers a next state: a mapped byte, from a state with the invariant ... -/
theorem witness_next_mapped :
    (start 0x0200 [0xA9, 0x10]).Inv ∧ ∃ t, step (start 0x0200 [0xA9, 0x10]) = .next t ∧ (t.diag == []) = true :=
  ⟨by decide +kernel, next_of_after (by decide +kernel)⟩
/-- ... and an empty byte, whose record is logged. -/
theorem witness_next_unmapped :
    (start 0x0200 [0x02]).Inv ∧ ∃ t, step (start 0x0200 [0x02]) = .next t ∧ (t.diag == [(0x0200, 0x02)]) = true :=
  ⟨by decide +kernel, next_of_after (by decide +kernel)⟩
/-- LDA $12FF,X with X = 1 (crossing) and X = 0 (not): 5 and 4 cycles, at its own byte and at 0x02 of a supplied table. -/
theorem witness_TableCycles_crossing :
    (0xBD, Mnemonic.lda, Mode.absoluteX, 4) ∈ opTable ∧
    decode Config.default (start 0x0200 [0xBD, 0xFF, 0x12]).bytesAtPc = .instr (.ldaAbsX 0x12FF) [] ∧
    (∃ t, step { start 0x0200 [0xBD, 0xFF, 0x12] with x := 0x01 } = .next t ∧ (t.clock == 12) = true) ∧
    (∃ t, step (start 0x0200 [0xBD, 0xFF, 0x12]) = .next t ∧ (t.clock == 11) = true) ∧
    ∃ t, step { start 0x0200 [0x02, 0xFF, 0x12] with
        cfg := { Config.default with dispatch := [⟨0x02, .lda, .absoluteX, rfl⟩] } } = .next t ∧ (t.clock == 11) = true :=
  ⟨by decide +kernel, by decide +kernel, next_of_after (by decide +kernel), next_of_after (by decide +kernel),
    next_of_after (by decide +kernel)⟩
/-- RES at the byte RES_OPCODE binds: 8 cycles. -/
theorem witness_TableCycles_res :
    decode { Config.default with resOpcode := some 0x02 } (start 0x0200 [0x02]).bytesAtPc = .instr .res [0x00, 0x00] ∧
    ∃ t, step { start 0x0200 [0x02] with cfg := { Config.default with resOpcode := some 0x02 } } = .next t ∧
      (t.clock == 15) = true :=
  ⟨by decide +kernel, next_of_after (by decide +kernel)⟩
/-- BNE taken across a page: 4 cycles. -/
theorem witness_TableCycles_branch :
    decode Config.default (start 0x0280 [0xD0, 0x7F]).bytesAtPc = .instr (.bne 0x7F) [0x00] ∧
    ∃ t, step (start 0x0280 [0xD0, 0x7F]) = .next t ∧ (t.clock == 11) = true :=
  ⟨by decide +kernel, next_of_after (by decide +kernel)⟩
/-- Every register clause: A by a load and by an accumulator shift, X, Y, SP. -/
theorem witness_ListedRegisters :
    (∃ t, exec (.ldaImm 0x10) State.reset = .next t ∧ (t.a != State.reset.a) = true) ∧
    (∃ t, exec .aslAcc { State.reset with a := 0x01 } = .next t ∧ (t.a != 0x01) = true) ∧
    (∃ t, exec .inx State.reset = .next t ∧ (t.x != State.reset.x) = true) ∧
    (∃ t, exec .dey State.reset = .next t ∧ (t.y != State.reset.y) = true) ∧
    ∃ t, exec .pha State.reset = .next t ∧ (t.sp != State.reset.sp) = true :=
  ⟨next_of_after (by decide +kernel), next_of_after (by decide +kernel), next_of_after (by decide +kernel),
    next_of_after (by decide +kernel), next_of_after (by decide +kernel)⟩
/-- Every flag clause: C and N by ROR, Z by LDA, I by SEI, D by SED, B by BRK, V by BIT. -/
theorem witness_ListedFlags :
    (∃ t, exec .rorAcc { State.reset with a := 0x01 } = .next t ∧ (t.flags.c != State.reset.flags.c) = true) ∧
    (∃ t, exec (.ldaImm 0x80) State.reset = .next t ∧ (t.flags.n != State.reset.flags.n) = true) ∧
    (∃ t, exec (.ldaImm 0x00) State.reset = .next t ∧ (t.flags.z != State.reset.flags.z) = true) ∧
    (∃ t, exec .sei State.reset = .next t ∧ (t.flags.i != State.reset.flags.i) = true) ∧
    (∃ t, exec .sed State.reset = .next t ∧ (t.flags.d != State.reset.flags.d) = true) ∧
    (∃ t, exec .brk { State.reset with flags := { State.reset.flags with b := false } } = .next t ∧
      (t.flags.b != false) = true) ∧
    ∃ t, exec (.bitZp 0x00) (poke State.reset [(0x0000, 0x40)]) = .next t ∧
      (t.flags.v != State.reset.flags.v) = true :=
  ⟨next_of_after (by decide +kernel), next_of_after (by decide +kernel), next_of_after (by decide +kernel),
    next_of_after (by decide +kernel), next_of_after (by decide +kernel), next_of_after (by decide +kernel),
    next_of_after (by decide +kernel)⟩
/-- A push and a store, each at its cell. -/
theorem witness_ListedMemory :
    (∃ t, exec .pha { State.reset with a := 0x01 } = .next t ∧ (t.mem.read 0x01FD != State.reset.mem.read 0x01FD) = true) ∧
    ∃ t, exec (.incZp 0xFF) State.reset = .next t ∧ (t.mem.read 0x00FF != State.reset.mem.read 0x00FF) = true :=
  ⟨next_of_after (by decide +kernel), next_of_after (by decide +kernel)⟩
theorem witness_NoStepClearsBreak :
    resByte (start 0x0200 [0x28]).cfg = none ∧ (start 0x0200 [0x28]).flags.b = true ∧
    ∃ t, step (start 0x0200 [0x28]) = .next t ∧ (t.flags.b == true) = true :=
  ⟨by decide +kernel, rfl, next_of_after (by decide +kernel)⟩
theorem witness_InterruptAndDecimal :
    (start 0x0200 [0x69, 0x09]).cfg.decimalPolicy = .binary ∧
    ∃ t, step (start 0x0200 [0x69, 0x09]) = .next t ∧ (t.a == 0x09) = true :=
  ⟨rfl, next_of_after (by decide +kernel)⟩
/-- The memory clause: PHP and BRK push another status byte where I or D is another, at the cell the statement names. -/
theorem witness_PushedStatus :
    isPushedStatusCell (start 0x0200 [0x08]) 0x01FD ∧ isPushedStatusCell (start 0x0200 [0x00]) 0x01FB ∧
    after (step (start 0x0200 [0x08])) (fun t => t.mem.read 0x01FD == 0x30) = true ∧
    after (step { start 0x0200 [0x08] with flags := { State.reset.flags with i := true } })
      (fun t => t.mem.read 0x01FD == 0x34) = true ∧
    after (step { start 0x0200 [0x00] with flags := { State.reset.flags with d := true } })
      (fun t => t.mem.read 0x01FB == 0x38) = true :=
  ⟨.inl ⟨⟨.implied, by decide +kernel⟩, by decide +kernel⟩, .inr ⟨⟨.implied, by decide +kernel⟩, by decide +kernel⟩,
    by decide +kernel, by decide +kernel, by decide +kernel⟩
theorem witness_Modes :
    (Instr.ldxZpY 0xFF).mode = .zeroPageY ∧ (Instr.stxZpY 0x00).mode = .zeroPageY ∧
    (Instr.staAbsY 0xFFFF).mode = .absoluteY := ⟨rfl, rfl, rfl⟩
/-- The two pushed cells of a word at SP = 0x00, and an address outside them. -/
theorem witness_PullUndoesPush :
    (0x0101 : Word) ≠ stackAddr 0x00 ∧ (0x0101 : Word) ≠ stackAddr (0x00 - 1) ∧ stackAddr (0x00 - 1) = 0x01FF := by
  decide
theorem witness_Mnemonics :
    (Instr.ldaImm 0x00).mnemonic = .lda ∧ (Instr.ldxZpY 0xFF).mnemonic = .ldx ∧ (Instr.ldyAbsX 0xFFFF).mnemonic = .ldy ∧
    (Instr.staIndX 0xFF).mnemonic = .sta ∧ (Instr.stxAbs 0x0000).mnemonic = .stx ∧ (Instr.styZpX 0x80).mnemonic = .sty ∧
    (Instr.andIndY 0x00).mnemonic = .and ∧ (Instr.eorAbs 0xFFFF).mnemonic = .eor ∧ (Instr.oraImm 0x01).mnemonic = .ora ∧
    (Instr.bitAbs 0x0400).mnemonic = .bit ∧ (Instr.cmpIndY 0xFF).mnemonic = .cmp ∧ (Instr.cpxZp 0x00).mnemonic = .cpx ∧
    (Instr.cpyImm 0x06).mnemonic = .cpy ∧ (Instr.incAbsX 0xFFFF).mnemonic = .inc ∧ (Instr.decZp 0x00).mnemonic = .dec := by
  decide
/-- A store into the next opcode byte, STA $0203 at 0x0200; one into its last operand byte, STX $0205; an INC of the next
opcode byte; a PHA at 0x01FC, PC = SP's cell after the fetch; a JSR into its own frame; a BRK whose vector is its frame. -/
theorem witness_StoreIsSeen :
    memOperand? (.staAbs 0x0203) = some (.abs 0x0203) ∧
    after (exec (.staAbs 0x0203) { fetched 0x0200 [0x8D, 0x03, 0x02] with a := 0xE8 })
      (fun t => t.pc == 0x0203 && t.bytesAtPc[0]? == some 0xE8) = true ∧
    after (exec (.stxAbs 0x0205) { fetched 0x0200 [0x8E, 0x05, 0x02] with x := 0x77 })
      (fun t => t.pc == 0x0203 && t.bytesAtPc[2]? == some 0x77) = true ∧
    after (exec (.incAbs 0x0203) (fetched 0x0200 [0xEE, 0x03, 0x02, 0xE7]))
      (fun t => t.bytesAtPc[0]? == some 0xE8) = true ∧
    after (exec .pha { fetched 0x01FC [0x48] with a := 0xE8 })
      (fun t => t.pc == 0x01FD && t.bytesAtPc[0]? == some 0xE8) = true ∧
    after (exec (.jsr 0x01FC) (fetched 0x0200 [0x20, 0xFC, 0x01]))
      (fun t => t.bytesAtPc[0]? == some 0x02 && t.bytesAtPc[1]? == some 0x02) = true ∧
    after (exec .brk (poke (fetched 0x0204 [0x00]) [(0xFFFE, 0xFB), (0xFFFF, 0x01)]))
      (fun t => t.pc == 0x01FB && t.bytesAtPc == [0x30, 0x06, 0x02]) = true := by
  decide +kernel
/-- Both ways an ADC or SBC is not refused, and the way it is. -/
theorem witness_DecimalPolicy :
    State.reset.BinaryOk ∧
    State.BinaryOk { State.reset with flags := { State.reset.flags with d := true } } ∧
    State.BinaryOk { State.reset with cfg := { Config.default with decimalPolicy := .refuse } } ∧
    ¬ State.BinaryOk { State.reset with
      flags := { State.reset.flags with d := true }, cfg := { Config.default with decimalPolicy := .refuse } } ∧
    (Instr.adcImm 0x01).mnemonic = .adc ∧ (Instr.sbcIndX 0xFF).mnemonic = .sbc := by decide
theorem witness_Shifts :
    Instr.aslAcc.mnemonic ∈ shifts ∧ Instr.aslAcc.mode = .accumulator ∧ Instr.rorAcc.mnemonic ∈ shifts ∧
    (Instr.lsrAbsX 0xFFFF).mnemonic ∈ shifts ∧ (Instr.lsrAbsX 0xFFFF).mode ≠ .accumulator ∧
    (Instr.rolZp 0x00).mnemonic ∈ shifts := by decide
/-- Offsets 0x80, 0x7F and 0x00: the ends of the reach and the next instruction. -/
theorem witness_Branches :
    (Instr.bcc 0x80).mode = .relative ∧ (Instr.bvs 0x7F).mode = .relative ∧
    (∃ t, exec (.bcc 0x80) { State.reset with pc := 0x0201 } = .next t ∧ (t.pc == 0x0182) = true) ∧
    (∃ t, exec (.bpl 0x7F) { State.reset with pc := 0x0201 } = .next t ∧ (t.pc == 0x0281) = true) ∧
    ∃ t, exec (.beq 0x00) { State.reset with pc := 0x0201 } = .next t ∧ (t.pc == 0x0202) = true :=
  ⟨rfl, rfl, next_of_after (by decide +kernel), next_of_after (by decide +kernel), next_of_after (by decide +kernel)⟩
/-- A return to where the call came from, the stack wrapping at SP = 0x00, after the subroutine stored to 0x0401. -/
theorem witness_RtsReturnsFromJsr :
    ∃ t, exec (.jsr 0x0300) { State.reset with pc := 0x0201, sp := 0x00 } = .next t ∧
      (let u := poke t [(0x0401, 0xFF)]
       u.mem != t.mem && u.sp == 0xFE && u.mem.read 0x0100 == t.mem.read 0x0100 &&
         u.mem.read 0x01FF == t.mem.read 0x01FF && after (exec .rts u) (fun r => r.pc == 0x0203 && r.sp == 0x00)) = true :=
  next_of_after (by decide +kernel)
/-- A return from the break trap, its frame wrapping at SP = 0x01, after the handler stored to 0x0401. -/
theorem witness_RtiReturnsFromBrk :
    ∃ t, exec .brk { State.reset with pc := 0x0205, sp := 0x01 } = .next t ∧
      (let u := poke t [(0x0401, 0xFF)]
       u.mem != t.mem && u.sp == 0xFE && u.mem.read 0x0101 == t.mem.read 0x0101 &&
         u.mem.read 0x0100 == t.mem.read 0x0100 && u.mem.read 0x01FF == t.mem.read 0x01FF &&
         after (exec .rti u) (fun r => r.pc == 0x0206 && r.sp == 0x01)) = true :=
  next_of_after (by decide +kernel)
/-- Two different states with the same memory and configuration. -/
theorem witness_ResetForgets :
    ({ State.reset with a := 0x05, sp := 0x20 } : State).mem = State.reset.mem ∧
    ({ State.reset with a := 0x05, sp := 0x20 } : State).cfg = State.reset.cfg ∧
    ({ State.reset with a := 0x05, sp := 0x20 } : State) ≠ State.reset ∧
    ({ State.reset with mark := .faulted .notReset } : State).mem = State.reset.mem := by decide +kernel
theorem witness_Execute :
    ({ State.reset with mark := .faulted .notReset } : State).mark ≠ .running ∧
    (∃ t, step (start 0x0200 [0xEA]) = .next t ∧ (t.pc == 0x0201) = true) ∧
    faults (step (State.constructed Config.default 1 2 3 4 5 State.reset.flags [])) .notReset = true ∧
    refuses (step { start 0x0200 [0xE9, 0x01] with
      flags := { State.reset.flags with d := true }, cfg := { Config.default with decimalPolicy := .refuse } })
      .decimalModeUnmodelled = true :=
  ⟨by decide, next_of_after (by decide +kernel), by decide +kernel, by decide +kernel⟩
/-- A word at the top of memory, and a range over it. -/
theorem witness_HostWords :
    (apiWriteWord State.reset 0xFFFF 0x1234).mem.read 0xFFFF = 0x34 ∧
    (apiWriteWord State.reset 0xFFFF 0x1234).mem.read 0x0000 = 0x12 ∧
    apiReadRange (apiWriteWord State.reset 0xFFFF 0x1234) 0xFFFF 2 = [0x34, 0x12] := by decide +kernel
theorem witness_HostRegisters :
    (State.constructed Config.default 1 2 3 4 5 State.reset.flags []).ready = false ∧ State.reset.ready = true := ⟨rfl, rfl⟩

end Sys2Proof.Tests
end

namespace Sys2Proof.Machine

/-! PROOFS. The scope's statements: the branches of the step and the effects of `exec`, said once; what every completed
instruction keeps; and the host interface's rules. -/

/-! ## The step, a lemma for each of its branches -/

theorem step_of_faulted {s : State} {r : Fault} (h : s.mark = .faulted r) : step s = .fault r := by
  simp [step, h]

theorem step_of_refused {s : State} {r : Refusal} (h : s.mark = .refused r) : step s = .refused r := by
  simp [step, h]

theorem step_of_not_ready {s : State} (hm : s.mark = .running) (hr : s.ready = false) :
    step s = .fault .notReset := by
  simp [step, hm, hr]

theorem step_of_unmapped {s : State} (hm : s.mark = .running) (hr : s.ready = true)
    (hrow : rowOf s.cfg (s.mem.read s.pc) = none) :
    step s = .next (s.takeByte.logUnmapped s.pc (s.mem.read s.pc)) := by
  simp [step, hm, hr, hrow]

theorem step_of_mapped {s : State} {r : OpRow} (hm : s.mark = .running) (hr : s.ready = true)
    (hrow : rowOf s.cfg (s.mem.read s.pc) = some r) :
    step s = exec (s.takeByte.instrAtPc r) s.takeByte := by
  simp [step, hm, hr, hrow]

/-- Only a ready state without a mark has a next state. -/
theorem running_of_step_next {s t : State} (h : step s = .next t) : s.mark = .running ∧ s.ready = true := by
  cases hm : s.mark with
  | faulted r => simp [step_of_faulted hm] at h
  | refused r => simp [step_of_refused hm] at h
  | running =>
    cases hr : s.ready with
    | false => simp [step_of_not_ready hm hr] at h
    | true => exact ⟨rfl, rfl⟩

/-- What a completing step is: the skip of an unmapped byte, or the mapped instruction run after its opcode fetch. -/
theorem step_next_cases {s t : State} (h : step s = .next t) :
    s.mark = .running ∧ s.ready = true ∧
      ((rowOf s.cfg (s.mem.read s.pc) = none ∧ t = s.takeByte.logUnmapped s.pc (s.mem.read s.pc)) ∨
        ∃ r, rowOf s.cfg (s.mem.read s.pc) = some r ∧ exec (s.takeByte.instrAtPc r) s.takeByte = .next t) := by
  obtain ⟨hm, hr⟩ := running_of_step_next h
  refine ⟨hm, hr, ?_⟩
  cases hrow : rowOf s.cfg (s.mem.read s.pc) with
  | none =>
    rw [step_of_unmapped hm hr hrow] at h
    injection h with ht
    exact .inl ⟨rfl, ht.symm⟩
  | some r => exact .inr ⟨r, rfl, step_of_mapped hm hr hrow ▸ h⟩

/-! ## What an instruction can do -/

/-- The shapes of `exec`'s answer: an instruction of class R, W or RMW, an internal operation of one tick, a branch, a stack
or control transfer, or the decimal refusal. Which registers and flags an instruction changes, and to what, is left open. -/
inductive Effect (i : Instr) (s : State) : Host.Outcome State Fault Refusal → Prop where
  | read (o : Operand) (a x y : Byte) (f : Flags) :
      Effect i s (.next { (s.readOperand o).2 with a := a, x := x, y := y, flags := f })
  | store (m : MemOperand) (v : Byte) : Effect i s (.next (s.store m v))
  | modify (m : MemOperand) (g : Byte → Byte) (f : Flags) :
      Effect i s (.next { (s.modify m g).2.2 with flags := f })
  | shift (o : ShiftOperand) (g : Byte → Bool → ShiftResult) (f : Flags) :
      Effect i s (.next { (s.applyShift o g).2 with flags := f })
  | internal (a x y sp : Byte) (f : Flags) :
      Effect i s (.next { s.tick 1 with a := a, x := x, y := y, sp := sp, flags := f })
  | branch (cond : Bool) (off : Byte) : Effect i s (.next (s.branch cond off))
  | push (v : Byte) : Effect i s (.next ((s.tick 1).push v))
  | pull (a : Byte) (f : Flags) : Effect i s (.next { (s.tick 2).pull.2 with a := a, flags := f })
  | jump (a : Word) : Effect i s (.next (opJmp a s))
  | jumpIndirect (p : Word) : Effect i s (.next (opJmpIndirect p s))
  | call (a : Word) : Effect i s (.next (opJsr a s))
  | ret : Effect i s (.next (opRts s))
  | brk : Effect i s (.next (opBrk s))
  | rti : Effect i s (.next (opRti s))
  | reset : Effect i s (.next s.resetSequence)
  | nop : Effect i s (.next (opNop s))
  | refused (hi : i.mnemonic = .adc ∨ i.mnemonic = .sbc) (hd : s.flags.d = true)
      (hp : s.cfg.decimalPolicy = .refuse) : Effect i s (.refused .decimalModeUnmodelled)

theorem decimalRefused_iff (s : State) :
    decimalRefused s = true ↔ s.flags.d = true ∧ s.cfg.decimalPolicy = .refuse := by
  simp [decimalRefused]

theorem opAdc_effect {i : Instr} (hi : i.mnemonic = .adc) (o : Operand) (s : State) : Effect i s (opAdc o s) := by
  unfold opAdc
  split
  next h =>
    obtain ⟨hd, hp⟩ := (decimalRefused_iff s).1 h
    exact .refused (.inl hi) hd hp
  next => exact .read ..

theorem opSbc_effect {i : Instr} (hi : i.mnemonic = .sbc) (o : Operand) (s : State) : Effect i s (opSbc o s) := by
  unfold opSbc
  split
  next h =>
    obtain ⟨hd, hp⟩ := (decimalRefused_iff s).1 h
    exact .refused (.inr hi) hd hp
  next => exact .read ..

/-- Every instruction has one of the effects. -/
theorem exec_effect (i : Instr) (s : State) : Effect i s (exec i s) := by
  cases i with
  | ldaImm | ldaZp | ldaZpX | ldaAbs | ldaAbsX | ldaAbsY | ldaIndX | ldaIndY
  | ldxImm | ldxZp | ldxZpY | ldxAbs | ldxAbsY
  | ldyImm | ldyZp | ldyZpX | ldyAbs | ldyAbsX
  | andImm | andZp | andZpX | andAbs | andAbsX | andAbsY | andIndX | andIndY
  | eorImm | eorZp | eorZpX | eorAbs | eorAbsX | eorAbsY | eorIndX | eorIndY
  | oraImm | oraZp | oraZpX | oraAbs | oraAbsX | oraAbsY | oraIndX | oraIndY
  | bitZp | bitAbs
  | cmpImm | cmpZp | cmpZpX | cmpAbs | cmpAbsX | cmpAbsY | cmpIndX | cmpIndY
  | cpxImm | cpxZp | cpxAbs | cpyImm | cpyZp | cpyAbs => exact .read ..
  | adcImm | adcZp | adcZpX | adcAbs | adcAbsX | adcAbsY | adcIndX | adcIndY => exact opAdc_effect rfl _ s
  | sbcImm | sbcZp | sbcZpX | sbcAbs | sbcAbsX | sbcAbsY | sbcIndX | sbcIndY => exact opSbc_effect rfl _ s
  | staZp | staZpX | staAbs | staAbsX | staAbsY | staIndX | staIndY
  | stxZp | stxZpY | stxAbs | styZp | styZpX | styAbs => exact .store ..
  | incZp | incZpX | incAbs | incAbsX | decZp | decZpX | decAbs | decAbsX => exact .modify ..
  | aslAcc | aslZp | aslZpX | aslAbs | aslAbsX
  | lsrAcc | lsrZp | lsrZpX | lsrAbs | lsrAbsX
  | rolAcc | rolZp | rolZpX | rolAbs | rolAbsX
  | rorAcc | rorZp | rorZpX | rorAbs | rorAbsX => exact .shift ..
  | tax | tay | txa | tya | tsx | txs | inx | iny | dex | dey
  | clc | cld | cli | clv | sec | sed | sei => exact .internal ..
  | bcc | bcs | beq | bmi | bne | bpl | bvc | bvs => exact .branch ..
  | pha | php => exact .push _
  | pla | plp => exact .pull ..
  | jmpAbs => exact .jump _
  | jmpInd => exact .jumpIndirect _
  | jsr => exact .call _
  | rts => exact .ret
  | brk => exact .brk
  | rti => exact .rti
  | res => exact .reset
  | nop => exact .nop

/-! ## What every instruction keeps -/

/-- What a completed instruction leaves as a run needs it: configuration and log unchanged, the clock not moved back, and
reset-has-run, no mark and memory's canonical form kept. RES sets `ready` and clears the mark, so those two are kept from
a running state only. -/
structure KeepsRun (s t : State) : Prop where
  cfg   : t.cfg = s.cfg
  diag  : t.diag = s.diag
  clock : s.clock ≤ t.clock
  ready : s.ready = true → t.ready = true
  mark  : s.mark = .running → t.mark = .running
  wf    : s.mem.wf = true → t.mem.wf = true

theorem KeepsRun.trans {s t u : State} (hst : KeepsRun s t) (htu : KeepsRun t u) : KeepsRun s u where
  cfg := htu.cfg.trans hst.cfg
  diag := htu.diag.trans hst.diag
  clock := hst.clock.trans htu.clock
  ready h := htu.ready (hst.ready h)
  mark h := htu.mark (hst.mark h)
  wf h := htu.wf (hst.wf h)

/-- A state that differs only in registers, flags and a later clock. -/
theorem keepsRun_registers (s : State) (a x y sp : Byte) (pc : Word) (f : Flags) (k : Nat) :
    KeepsRun s { s with a := a, x := x, y := y, sp := sp, pc := pc, flags := f, clock := s.clock + k } :=
  ⟨rfl, rfl, Nat.le_add_right .., id, id, id⟩

theorem keepsRun_store (s : State) (m : MemOperand) (v : Byte) : KeepsRun s (s.store m v) := by
  rw [State.store_eq]
  exact ⟨rfl, rfl, Nat.le_add_right .., id, id, Memory.wf_write _ _⟩

theorem keepsRun_modify (s : State) (m : MemOperand) (g : Byte → Byte) : KeepsRun s (s.modify m g).2.2 := by
  rw [State.modify_eq]
  exact ⟨rfl, rfl, Nat.le_add_right .., id, id, Memory.wf_write _ _⟩

theorem keepsRun_applyShift (s : State) (o : ShiftOperand) (g : Byte → Bool → ShiftResult) :
    KeepsRun s (s.applyShift o g).2 := by
  cases o with
  | acc => exact keepsRun_registers ..
  | mem m =>
    rw [State.applyShift_mem]
    exact ⟨rfl, rfl, Nat.le_add_right .., id, id, Memory.wf_write _ _⟩

theorem keepsRun_push (s : State) (v : Byte) : KeepsRun s (s.push v) :=
  ⟨rfl, rfl, Nat.le_succ _, id, id, Memory.wf_write _ _⟩

theorem keepsRun_pushWord (s : State) (w : Word) : KeepsRun s (s.pushWord w) :=
  (keepsRun_push ..).trans (keepsRun_push ..)

theorem keepsRun_enterBreak (s : State) : KeepsRun s s.enterBreak := by
  have hframe : s.mem.wf = true → (breakFrame s).wf = true := fun h =>
    Memory.wf_write _ _ (Memory.wf_write _ _ (Memory.wf_write _ _ h))
  rw [State.enterBreak_eq]
  exact ⟨rfl, rfl, Nat.le_add_right _ 5, id, id, hframe⟩

theorem keepsRun_opBrk (s : State) : KeepsRun s (opBrk s) := by
  unfold opBrk
  split
  all_goals exact (keepsRun_registers _ _ _ _ _ _ _ 1).trans (keepsRun_enterBreak _)

theorem keepsRun_opJsr (s : State) (a : Word) : KeepsRun s (opJsr a s) := by
  rw [opJsr, State.takeWord_eq, State.pushWord_eq]
  exact ⟨rfl, rfl, Nat.le_add_right _ 5, id, id, fun h => Memory.wf_write _ _ (Memory.wf_write _ _ h)⟩

theorem keepsRun_opJmpIndirect (s : State) (p : Word) : KeepsRun s (opJmpIndirect p s) := by
  rw [opJmpIndirect, State.indirectTarget_eq]
  exact keepsRun_registers _ _ _ _ _ _ _ 4

theorem keepsRun_opRts (s : State) : KeepsRun s (opRts s) := by
  rw [opRts, State.pullWord_eq]
  exact keepsRun_registers _ _ _ _ _ _ _ 5

theorem keepsRun_opRti (s : State) : KeepsRun s (opRti s) := by
  rw [opRti, State.returnFromBreak_eq]
  exact keepsRun_registers _ _ _ _ _ _ _ 5

theorem keepsRun_opNop (s : State) : KeepsRun s (opNop s) := by
  unfold opNop
  split
  all_goals exact keepsRun_registers _ _ _ _ _ _ _ 1

theorem keepsRun_resetSequence (s : State) : KeepsRun s s.resetSequence := by
  rw [State.resetSequence_eq]
  exact ⟨rfl, rfl, by simp only; omega, fun _ => rfl, fun _ => rfl, id⟩

theorem Effect.keepsRun {i : Instr} {s t : State} (h : Effect i s (.next t)) : KeepsRun s t := by
  cases h with
  | read o => rw [State.readOperand_eq]; exact keepsRun_registers ..
  | store m v => exact keepsRun_store s m v
  | modify m g => exact (keepsRun_modify s m g).trans (keepsRun_registers _ _ _ _ _ _ _ 0)
  | shift o g => exact (keepsRun_applyShift s o g).trans (keepsRun_registers _ _ _ _ _ _ _ 0)
  | internal => exact keepsRun_registers _ _ _ _ _ _ _ 1
  | branch c off => rw [State.branch_eq, Nat.add_assoc]; exact keepsRun_registers ..
  | push v => exact (keepsRun_registers _ _ _ _ _ _ _ 1).trans (keepsRun_push _ v)
  | pull => exact keepsRun_registers _ _ _ _ _ _ _ 3
  | jump a => exact keepsRun_registers _ _ _ _ _ _ _ 2
  | jumpIndirect p => exact keepsRun_opJmpIndirect s p
  | call a => exact keepsRun_opJsr s a
  | ret => exact keepsRun_opRts s
  | brk => exact keepsRun_opBrk s
  | rti => exact keepsRun_opRti s
  | reset => exact keepsRun_resetSequence s
  | nop => exact keepsRun_opNop s

theorem exec_keepsRun {i : Instr} {s t : State} (h : exec i s = .next t) : KeepsRun s t :=
  Effect.keepsRun (i := i) (h ▸ exec_effect i s)

/-- An instruction answers a next state, or it is the decimal refusal of an ADC or SBC. -/
theorem exec_next_or_refused (i : Instr) (s : State) :
    (∃ t, exec i s = .next t) ∨
    (exec i s = .refused .decimalModeUnmodelled ∧ s.flags.d = true ∧ s.cfg.decimalPolicy = .refuse ∧
      (i.mnemonic = .adc ∨ i.mnemonic = .sbc)) := by
  have h := exec_effect i s
  cases hx : exec i s with
  | next t => exact .inl ⟨t, rfl⟩
  | fault r => rw [hx] at h; cases h
  | refused r =>
    rw [hx] at h
    cases h with
    | refused hi hd hp => exact .inr ⟨rfl, hd, hp, hi⟩

/-! ## The record and its instruction -/

/-- Every pair that a rule defines gives an instruction of that mnemonic and mode. -/
theorem mnemonic_mode_of_ofParts {mn : Mnemonic} {mode : Mode} {b h : Byte} {i : Instr}
    (hi : Instr.ofParts mn mode b h = some i) : i.mnemonic = mn ∧ i.mode = mode := by
  cases mn <;> cases mode <;> cases hi <;> exact ⟨rfl, rfl⟩

theorem mnemonic_mode_instr (r : OpRow) (b h : Byte) :
    (r.instr b h).mnemonic = r.mnemonic ∧ (r.instr b h).mode = r.mode :=
  mnemonic_mode_of_ofParts (Option.some_get (Instr.ofParts_isSome r.legal b h)).symm

theorem dispatchOf_of_rowOf {cfg : Config} {op : Byte} {r : OpRow} (h : rowOf cfg op = some r) :
    dispatchOf cfg op = some (r.mnemonic, r.mode) := by
  simp [dispatchOf, h]

/-! ## The statements about the step -/

/-- A completing step keeps the configuration and a running state's `ready` and mark. -/
theorem step_keeps_cfg_ready_mark {s t : State} (h : step s = .next t) :
    t.cfg = s.cfg ∧ t.ready = s.ready ∧ t.mark = s.mark := by
  obtain ⟨hm, hr, ⟨-, rfl⟩ | ⟨r, -, hx⟩⟩ := step_next_cases h
  · exact ⟨rfl, rfl, rfl⟩
  · have hk := exec_keepsRun hx
    exact ⟨hk.cfg, (hk.ready hr).trans hr.symm, (hk.mark hm).trans hm.symm⟩

/-- Settles O12: only RES writes `ready` or the mark, and it writes what a running state has. -/
theorem noStepWritesConfigurationOrReady : Obligations.NoStepWritesConfigurationOrReady :=
  fun _ _ => step_keeps_cfg_ready_mark

/-- Settles O13: the opcode fetch takes a cycle, and nothing after it moves the clock back. -/
theorem everyStepAdvancesTheClock : Obligations.EveryStepAdvancesTheClock := by
  intro s t h
  have hfetch : s.clock < s.takeByte.clock := Nat.lt_succ_self _
  obtain ⟨-, -, ⟨-, rfl⟩ | ⟨r, -, hx⟩⟩ := step_next_cases h
  · exact hfetch
  · exact hfetch.trans_le (exec_keepsRun hx).clock

/-- Settles O9: an unmapped byte is skipped, and a mapped instruction completes or is the decimal refusal; the record's
mnemonic is the instruction's. -/
theorem stepStopsOnlyOnTheDecimalRefusal : Obligations.StepStopsOnlyOnTheDecimalRefusal := by
  intro s hm hr
  cases hrow : rowOf s.cfg (s.mem.read s.pc) with
  | none => exact .inl ⟨_, step_of_unmapped hm hr hrow⟩
  | some r =>
    rw [step_of_mapped hm hr hrow, dispatchOf_of_rowOf hrow]
    obtain ht | ⟨hx, hd, hp, hi⟩ := exec_next_or_refused (s.takeByte.instrAtPc r) s.takeByte
    · exact .inl ht
    · have hmn : r.mnemonic = .adc ∨ r.mnemonic = .sbc := by
        rwa [State.instrAtPc, (mnemonic_mode_instr r _ _).1] at hi
      exact .inr ⟨hx, hd, hp, r.mode, hmn.imp (fun e => by rw [e]) (fun e => by rw [e])⟩

/-! ## The host interface: execute -/

theorem apiExecute_succ_of_next {s t : State} (h : step s = .next t) (n : Nat) :
    apiExecute (n + 1) s = apiExecute n t := by
  simp [apiExecute, h]

theorem apiExecute_succ_of_fault {s : State} {r : Fault} (h : step s = .fault r) (n : Nat) :
    apiExecute (n + 1) s = { s with mark := .faulted r } := by
  simp [apiExecute, h]

theorem apiExecute_succ_of_refused {s : State} {r : Refusal} (h : step s = .refused r) (n : Nat) :
    apiExecute (n + 1) s = { s with mark := .refused r } := by
  simp [apiExecute, h]

/-- A marked state has no further step: its own reason comes again, and the mark is already there. -/
theorem apiExecute_of_marked {s : State} (h : s.mark ≠ .running) (n : Nat) : apiExecute n s = s := by
  cases n with
  | zero => rfl
  | succ n =>
    cases hm : s.mark with
    | running => exact absurd hm h
    | faulted r => rw [apiExecute_succ_of_fault (step_of_faulted hm), ← hm]
    | refused r => rw [apiExecute_succ_of_refused (step_of_refused hm), ← hm]

/-- Running m + n steps is running m and then n; a run that stopped in the first m stays where it stopped. -/
theorem apiExecute_add (m n : Nat) (s : State) : apiExecute (m + n) s = apiExecute n (apiExecute m s) := by
  induction m generalizing s with
  | zero => rw [Nat.zero_add]; rfl
  | succ m ih =>
    rw [Nat.succ_add]
    cases h : step s with
    | next t => rw [apiExecute_succ_of_next h, apiExecute_succ_of_next h, ih]
    | fault r =>
      rw [apiExecute_succ_of_fault h, apiExecute_succ_of_fault h, apiExecute_of_marked (by simp)]
    | refused r =>
      rw [apiExecute_succ_of_refused h, apiExecute_succ_of_refused h, apiExecute_of_marked (by simp)]

/-- Settles O58, clause by clause; the composition is by induction on the first run's steps. -/
theorem executeRunsStepsUntilAStop : Obligations.ExecuteRunsStepsUntilAStop :=
  ⟨fun _ => rfl,
   fun n _ _ h => apiExecute_succ_of_next h n,
   fun n _ _ h => apiExecute_succ_of_fault h n,
   fun n _ _ h => apiExecute_succ_of_refused h n,
   apiExecute_add,
   fun n _ h => apiExecute_of_marked h n⟩

/-! ## The host interface: memory -/

theorem toNat_word (l h : Byte) : (word l h).toNat = h.toNat * 256 + l.toNat := by
  have hl := l.isLt
  have hh := h.isLt
  simp only [word, BitVec.toNat_ofNat]
  omega

theorem length_apiReadRange (s : State) (a : Word) (n : Nat) : (apiReadRange s a n).length = n := by
  induction n generalizing a with
  | zero => rfl
  | succ n ih => simp [apiReadRange, ih]

theorem getElem?_apiReadRange (s : State) (a : Word) {n k : Nat} (hk : k < n) :
    (apiReadRange s a n)[k]? = some (s.mem.read (a + BitVec.ofNat 16 k)) := by
  induction n generalizing a k with
  | zero => omega
  | succ n ih =>
    cases k with
    | zero => simp [apiReadRange]
    | succ k =>
      have hnext : a + 1 + BitVec.ofNat 16 k = a + BitVec.ofNat 16 (k + 1) := by
        rw [BitVec.add_assoc, BitVec.add_comm 1, BitVec.ofNat_add]
        rfl
      rw [← hnext, ← ih (a + 1) (by omega)]
      rfl

/-- The cells after a word write: the low byte at the address, the high byte at the next, every other byte as it was. -/
theorem read_apiWriteWord (s : State) (a w b : Word) :
    (apiWriteWord s a w).mem.read b = if b = a then lo w else if b = a + 1 then hi w else s.mem.read b := by
  simp only [apiWriteWord, apiWriteByte, Memory.read_write]
  by_cases hb : b = a
  · simp [hb]
  · simp [hb]

theorem apiReadWord_apiWriteWord (s : State) (a w : Word) : apiReadWord (apiWriteWord s a w) a = w := by
  simp [apiReadWord, read_apiWriteWord, Laws.word_lo_hi]

/-- Settles O59, clause by clause; the range is by induction on its length. -/
theorem hostWordsReadBack : Obligations.HostWordsReadBack :=
  fun s a w v =>
    ⟨rfl,
     toNat_word _ _,
     fun n => ⟨length_apiReadRange s a n, fun _ hk => getElem?_apiReadRange s a hk⟩,
     ⟨_, rfl, fun b => Memory.read_write s.mem a b v⟩,
     ⟨_, rfl, read_apiWriteWord s a w⟩,
     apiReadWord_apiWriteWord s a w⟩

/-! ## The host interface: registers -/

theorem toNat_truncFlag (k : Nat) : (truncFlag k).toNat = k % 2 := by
  obtain h | h := Nat.mod_two_eq_zero_or_one k <;> simp [truncFlag, h]

theorem apiReadReg_of_not_ready {s : State} (h : s.ready = false) (r : HostReg) : apiReadReg s r = none := by
  simp [apiReadReg, h]

/-- The width of what an accessor names, as the number of its values. -/
def HostReg.size : HostReg → Nat
  | .a | .x | .y | .sp => 256
  | .pc => 65536
  | .c | .z | .i | .d | .b | .v | .n => 2

theorem apiReadReg_apiWriteReg {s : State} (h : s.ready = true) (r : HostReg) (k : Nat) :
    apiReadReg (apiWriteReg s r k) r = some (k % r.size) := by
  cases r with
  | a | x | y | sp | pc => simp [apiReadReg, apiWriteReg, HostReg.size, h]
  | c | z | i | d | b | v | n => simp [apiReadReg, apiWriteReg, HostReg.size, h, toNat_truncFlag]

/-- Settles O60: the reads and writes are the accessors' own arms, and a value written is read back modulo its size. -/
theorem hostRegistersReadBackTruncated : Obligations.HostRegistersReadBackTruncated := by
  intro s
  refine ⟨fun r h => apiReadReg_of_not_ready h r, fun h => ?_, fun k => ?_, fun r k h => ?_⟩
  · simp [apiReadReg, h]
  · exact ⟨rfl, rfl, rfl, rfl, rfl, rfl, rfl, rfl, rfl, rfl, rfl, rfl⟩
  · rw [apiReadReg_apiWriteReg h]
    cases r <;> rfl

end Sys2Proof.Machine

namespace Sys2Proof.Machine

open Sys2Proof.Says

/-! PROOFS. The state's statements: the invariant and the log along a step; which register and flag an instruction may
change, register by register as the spec lists them; and that nothing computes with I or D. -/

/-! ## The invariant and the log along a step -/

/-- Settles O10: an unmapped byte changes nothing the invariant speaks of, and every completed instruction keeps what a
run needs, the configuration included. -/
theorem everyStepKeepsTheInvariant : Obligations.EveryStepKeepsTheInvariant := by
  intro s t ⟨hready, hmark, hmem, hcfg⟩ hstep
  obtain ⟨-, -, ⟨-, rfl⟩ | ⟨r, -, hx⟩⟩ := step_next_cases hstep
  · exact ⟨hready, hmark, hmem, hcfg⟩
  · have hk := exec_keepsRun hx
    exact ⟨hk.ready hready, hk.mark hmark, hk.wf hmem, hk.cfg ▸ hcfg⟩

/-- Settles O11: the table of R80 has one record a byte, and nothing is listed in memory. -/
theorem resetStateMeetsTheInvariant : Obligations.ResetStateMeetsTheInvariant :=
  ⟨rfl, rfl, Memory.wf_reset, by decide +kernel⟩

/-- Settles O8: the check of `ready` comes before the fetch. -/
theorem stepBeforeResetFaults : Obligations.StepBeforeResetFaults := fun _ => step_of_not_ready

/-- Settles O14: the skip of an unmapped byte appends its record, and no instruction writes the log. -/
theorem onlyUnmappedBytesAreLogged : Obligations.OnlyUnmappedBytesAreLogged := by
  intro s t hstep
  obtain ⟨-, -, ⟨hrow, rfl⟩ | ⟨r, hrow, hx⟩⟩ := step_next_cases hstep
  · rw [if_pos (by simp [dispatchOf, hrow])]
    rfl
  · rw [if_neg (by simp [dispatchOf, hrow])]
    exact (exec_keepsRun hx).diag

/-! ## The status byte -/

@[simp] theorem getElem_flagBit (b : Bool) (k j : Nat) (hj : j < 8) : (flagBit b k)[j] = (decide (j = k) && b) := by
  have hjk : j = k ↔ ¬j < k ∧ j - k = 0 := by omega
  simp only [flagBit, BitVec.getElem_shiftLeft, BitVec.getElem_setWidth, BitVec.getLsbD_ofBool, hjk,
    Bool.decide_and, decide_not, Bool.and_assoc]

/-- Settles O26: each bit of the packed byte is the one flag placed there. -/
theorem packLaysOutTheStatusByte : Obligations.PackLaysOutTheStatusByte := by
  intro f
  simp [pack]

/-- Packing what was unpacked gives every bit back, with bit 4 from B and bit 5 set. -/
theorem pack_unpack (p : Byte) (f : Flags) : pack (unpack p { f with b := p.getLsbD 4 }) = p ||| 0x20 := by
  ext j hj
  interval_cases j <;> simp [pack, unpack]

/-- Unpacking reads the six flags' own bits, so a byte that differs from the packed one in bit 4 alone gives them too. -/
theorem unpack_pack (f g : Flags) : unpack (pack f) g = { f with b := g.b } := by
  simp [pack, unpack]

theorem unpack_pack_or_break (f g : Flags) : unpack (pack f ||| 0x10) g = { f with b := g.b } := by
  simp [pack, unpack]

/-- Settles O27. -/
theorem statusByteRoundTrip : Obligations.StatusByteRoundTrip :=
  ⟨pack_unpack, fun f g => ⟨unpack_pack f g, unpack_pack_or_break f g⟩⟩

/-! ## Which registers and flags an instruction may change -/

/-- Two states agree in the register or flag named. -/
def HostReg.Same : HostReg → State → State → Prop
  | .a, s, t => t.a = s.a
  | .x, s, t => t.x = s.x
  | .y, s, t => t.y = s.y
  | .sp, s, t => t.sp = s.sp
  | .pc, s, t => t.pc = s.pc
  | .c, s, t => t.flags.c = s.flags.c
  | .z, s, t => t.flags.z = s.flags.z
  | .i, s, t => t.flags.i = s.flags.i
  | .d, s, t => t.flags.d = s.flags.d
  | .b, s, t => t.flags.b = s.flags.b
  | .v, s, t => t.flags.v = s.flags.v
  | .n, s, t => t.flags.n = s.flags.n

theorem HostReg.Same.trans {r : HostReg} {s t u : State} (hst : r.Same s t) (htu : r.Same t u) : r.Same s u := by
  cases r <;> exact Eq.trans htu hst

/-- The writers of each register and flag as the spec lists them (10_state.md R29-R32, R35-R41), with RES for the reset.
PC is every instruction's. -/
def mayWrite (i : Instr) : HostReg → Bool
  | .a => decide (i.mnemonic ∈ [.lda, .txa, .tya, .pla, .and, .eor, .ora, .adc, .sbc, .res] ∨
      i.mnemonic ∈ shifts ∧ i.mode = .accumulator)
  | .x => decide (i.mnemonic ∈ [.ldx, .tax, .tsx, .inx, .dex, .res])
  | .y => decide (i.mnemonic ∈ [.ldy, .tay, .iny, .dey, .res])
  | .sp => decide (i.mnemonic ∈ [.txs, .pha, .php, .pla, .plp, .jsr, .rts, .brk, .rti, .res])
  | .pc => true
  | .c => decide (i.mnemonic ∈ carryWriters)
  | .z | .n => decide (i.mnemonic ∈ zeroAndNegativeWriters)
  | .i => decide (i.mnemonic ∈ [.sei, .cli, .brk, .plp, .rti, .res])
  | .d => decide (i.mnemonic ∈ [.sed, .cld, .plp, .rti, .res])
  | .b => decide (i.mnemonic ∈ [.brk, .res])
  | .v => decide (i.mnemonic ∈ [.adc, .sbc, .bit, .clv, .plp, .rti, .res])

/-- From `s` to `t` no register or flag changes but those in `w`. -/
def ChangesOnly (w : HostReg → Bool) (s t : State) : Prop := ∀ r, w r = false → r.Same s t

theorem ChangesOnly.trans {w : HostReg → Bool} {s t u : State} (hst : ChangesOnly w s t) (htu : ChangesOnly w t u) :
    ChangesOnly w s u := fun r hr => (hst r hr).trans (htu r hr)

/-- What has changed is in the set. -/
theorem ChangesOnly.of_changed {w : HostReg → Bool} {s t : State} (h : ChangesOnly w s t) {r : HostReg}
    (hr : ¬r.Same s t) : w r = true :=
  Bool.of_not_eq_false fun hw => hr (h r hw)

section

variable {w : HostReg → Bool} (s : State)

theorem changesOnly_tick (n : Nat) : ChangesOnly w s (s.tick n) := by
  intro r _
  cases r <;> rfl

theorem changesOnly_setA (ha : w .a = true) (v : Byte) : ChangesOnly w s (s.setA v) := by
  intro r hr
  cases r <;> simp_all [HostReg.Same]

theorem changesOnly_setX (hx : w .x = true) (v : Byte) : ChangesOnly w s (s.setX v) := by
  intro r hr
  cases r <;> simp_all [HostReg.Same]

theorem changesOnly_setY (hy : w .y = true) (v : Byte) : ChangesOnly w s (s.setY v) := by
  intro r hr
  cases r <;> simp_all [HostReg.Same]

theorem changesOnly_setSp (hsp : w .sp = true) (v : Byte) : ChangesOnly w s (s.setSp v) := by
  intro r hr
  cases r <;> simp_all [HostReg.Same]

theorem changesOnly_setPc (hpc : w .pc = true) (v : Word) : ChangesOnly w s (s.setPc v) := by
  intro r hr
  cases r <;> simp_all [HostReg.Same]

theorem changesOnly_memWrite (a : Word) (v : Byte) : ChangesOnly w s (s.memWrite a v) := by
  intro r _
  cases r <;> rfl

theorem changesOnly_setFlags {f : Flags}
    (hc : w .c = true ∨ f.c = s.flags.c) (hz : w .z = true ∨ f.z = s.flags.z) (hi : w .i = true ∨ f.i = s.flags.i)
    (hd : w .d = true ∨ f.d = s.flags.d) (hb : w .b = true ∨ f.b = s.flags.b) (hv : w .v = true ∨ f.v = s.flags.v)
    (hn : w .n = true ∨ f.n = s.flags.n) : ChangesOnly w s (s.setFlags f) := by
  intro r hr
  cases r <;> simp_all [HostReg.Same]

theorem changesOnly_setC (hc : w .c = true) (c : Bool) : ChangesOnly w s (s.setFlags { s.flags with c := c }) :=
  changesOnly_setFlags s (.inl hc) (.inr rfl) (.inr rfl) (.inr rfl) (.inr rfl) (.inr rfl) (.inr rfl)

theorem changesOnly_setI (hi : w .i = true) (i : Bool) : ChangesOnly w s (s.setFlags { s.flags with i := i }) :=
  changesOnly_setFlags s (.inr rfl) (.inr rfl) (.inl hi) (.inr rfl) (.inr rfl) (.inr rfl) (.inr rfl)

theorem changesOnly_setD (hd : w .d = true) (d : Bool) : ChangesOnly w s (s.setFlags { s.flags with d := d }) :=
  changesOnly_setFlags s (.inr rfl) (.inr rfl) (.inr rfl) (.inl hd) (.inr rfl) (.inr rfl) (.inr rfl)

theorem changesOnly_setB (hb : w .b = true) (b : Bool) : ChangesOnly w s (s.setFlags { s.flags with b := b }) :=
  changesOnly_setFlags s (.inr rfl) (.inr rfl) (.inr rfl) (.inr rfl) (.inl hb) (.inr rfl) (.inr rfl)

theorem changesOnly_setV (hv : w .v = true) (v : Bool) : ChangesOnly w s (s.setFlags { s.flags with v := v }) :=
  changesOnly_setFlags s (.inr rfl) (.inr rfl) (.inr rfl) (.inr rfl) (.inr rfl) (.inl hv) (.inr rfl)

theorem changesOnly_setZN (hz : w .z = true) (hn : w .n = true) (z n : Bool) :
    ChangesOnly w s (s.setFlags { s.flags with z := z, n := n }) :=
  changesOnly_setFlags s (.inr rfl) (.inl hz) (.inr rfl) (.inr rfl) (.inr rfl) (.inr rfl) (.inl hn)

theorem changesOnly_compare (hc : w .c = true) (hz : w .z = true) (hn : w .n = true) (reg v : Byte) :
    ChangesOnly w s (s.setFlags (compare8 reg v s.flags)) :=
  changesOnly_setFlags s (.inl hc) (.inl hz) (.inr rfl) (.inr rfl) (.inr rfl) (.inr rfl) (.inl hn)

theorem changesOnly_unpack (hc : w .c = true) (hz : w .z = true) (hi : w .i = true) (hd : w .d = true)
    (hv : w .v = true) (hn : w .n = true) (p : Byte) : ChangesOnly w s (s.setFlags (unpack p s.flags)) :=
  changesOnly_setFlags s (.inl hc) (.inl hz) (.inl hi) (.inl hd) (.inr rfl) (.inl hv) (.inl hn)

/-- The common part of ADC and SBC. -/
theorem changesOnly_addToA (ha : w .a = true) (hc : w .c = true) (hz : w .z = true) (hv : w .v = true)
    (hn : w .n = true) (v : Byte) : ChangesOnly w s (s.addToA v) :=
  (changesOnly_setA s ha _).trans
    (changesOnly_setFlags _ (.inl hc) (.inl hz) (.inr rfl) (.inr rfl) (.inr rfl) (.inl hv) (.inl hn))

/-! The stack moves SP, and the fetches, the resolver and the vectors move PC. -/

theorem changesOnly_push (hsp : w .sp = true) (v : Byte) : ChangesOnly w s (s.push v) :=
  (changesOnly_memWrite s _ v).trans (changesOnly_setSp _ hsp _)

theorem changesOnly_pull (hsp : w .sp = true) : ChangesOnly w s s.pull.2 :=
  (changesOnly_setSp s hsp _).trans (changesOnly_tick _ 1)

theorem changesOnly_pushWord (hsp : w .sp = true) (v : Word) : ChangesOnly w s (s.pushWord v) :=
  (changesOnly_push s hsp _).trans (changesOnly_push _ hsp _)

theorem changesOnly_pullWord (hsp : w .sp = true) : ChangesOnly w s s.pullWord.2 :=
  (changesOnly_pull s hsp).trans (changesOnly_pull _ hsp)

variable (hpc : w .pc = true)
include hpc

theorem changesOnly_takeByte : ChangesOnly w s s.takeByte :=
  (changesOnly_tick s 1).trans (changesOnly_setPc _ hpc _)

theorem changesOnly_takeWord : ChangesOnly w s s.takeWord :=
  (changesOnly_takeByte s hpc).trans (changesOnly_takeByte _ hpc)

theorem changesOnly_loadVector (a : Word) : ChangesOnly w s (s.loadVector a) :=
  (changesOnly_tick s 2).trans (changesOnly_setPc _ hpc _)

theorem changesOnly_readOperand (o : Operand) : ChangesOnly w s (s.readOperand o).2 := by
  rw [State.readOperand_eq]
  exact (changesOnly_tick s _).trans (changesOnly_setPc _ hpc _)

theorem changesOnly_store (m : MemOperand) (v : Byte) : ChangesOnly w s (s.store m v) := by
  rw [State.store_eq]
  exact ((changesOnly_tick s _).trans (changesOnly_memWrite _ _ v)).trans (changesOnly_setPc _ hpc _)

theorem changesOnly_modify (m : MemOperand) (g : Byte → Byte) : ChangesOnly w s (s.modify m g).2.2 := by
  rw [State.modify_eq]
  exact ((changesOnly_tick s (m.cycles .modify s + 2)).trans (changesOnly_memWrite _ _ _)).trans
    (changesOnly_setPc _ hpc _)

theorem changesOnly_branch (cond : Bool) (off : Byte) : ChangesOnly w s (s.branch cond off) := by
  rw [State.branch_eq, Nat.add_assoc]
  exact (changesOnly_tick s _).trans (changesOnly_setPc _ hpc _)

/-- A memory shift writes its cell and C; the accumulator form writes A and C. -/
theorem changesOnly_applyShift (hc : w .c = true) (o : ShiftOperand) (ha : o = .acc → w .a = true)
    (g : Byte → Bool → ShiftResult) : ChangesOnly w s (s.applyShift o g).2 := by
  cases o with
  | acc => exact ((changesOnly_tick s 1).trans (changesOnly_setA _ (ha rfl) _)).trans (changesOnly_setC _ hc _)
  | mem m => exact (changesOnly_modify s hpc m _).trans (changesOnly_setC _ hc _)

theorem changesOnly_enterBreak (hsp : w .sp = true) (hi : w .i = true) (hb : w .b = true) :
    ChangesOnly w s s.enterBreak :=
  ((((changesOnly_pushWord s hsp _).trans (changesOnly_push _ hsp _)).trans (changesOnly_setI _ hi true)).trans
    (changesOnly_loadVector _ hpc _)).trans (changesOnly_setB _ hb true)

end

/-- ADC that is not refused: the operand is added to A. -/
theorem opAdc_next {o : Operand} {s t : State} (h : opAdc o s = .next t) :
    decimalRefused s = false ∧ t = (s.readOperand o).2.addToA (s.readOperand o).1 := by
  unfold opAdc at h
  split at h
  next => cases h
  next hd => exact ⟨Bool.of_not_eq_true hd, (Host.Outcome.next.inj h).symm⟩

/-- SBC that is not refused: the operand's complement is added to A. -/
theorem opSbc_next {o : Operand} {s t : State} (h : opSbc o s = .next t) :
    decimalRefused s = false ∧ t = (s.readOperand o).2.addToA ((s.readOperand o).1 ^^^ 0xFF) := by
  unfold opSbc at h
  split at h
  next => cases h
  next hd => exact ⟨Bool.of_not_eq_true hd, (Host.Outcome.next.inj h).symm⟩

/-- A completed instruction changes no register and no flag but those it is listed for. Each case is the operation's own
sequence of writes; that each of them is listed is a computation on the mnemonic. -/
theorem exec_changesOnly {i : Instr} {s t : State} (h : exec i s = .next t) : ChangesOnly (mayWrite i) s t := by
  cases i with
  | ldaImm | ldaZp | ldaZpX | ldaAbs | ldaAbsX | ldaAbsY | ldaIndX | ldaIndY
  | andImm | andZp | andZpX | andAbs | andAbsX | andAbsY | andIndX | andIndY
  | eorImm | eorZp | eorZpX | eorAbs | eorAbsX | eorAbsY | eorIndX | eorIndY
  | oraImm | oraZp | oraZpX | oraAbs | oraAbsX | oraAbsY | oraIndX | oraIndY =>
    cases h
    exact ((changesOnly_readOperand s rfl _).trans (changesOnly_setA _ rfl _)).trans (changesOnly_setZN _ rfl rfl _ _)
  | ldxImm | ldxZp | ldxZpY | ldxAbs | ldxAbsY =>
    cases h
    exact ((changesOnly_readOperand s rfl _).trans (changesOnly_setX _ rfl _)).trans (changesOnly_setZN _ rfl rfl _ _)
  | ldyImm | ldyZp | ldyZpX | ldyAbs | ldyAbsX =>
    cases h
    exact ((changesOnly_readOperand s rfl _).trans (changesOnly_setY _ rfl _)).trans (changesOnly_setZN _ rfl rfl _ _)
  | adcImm | adcZp | adcZpX | adcAbs | adcAbsX | adcAbsY | adcIndX | adcIndY =>
    obtain ⟨-, rfl⟩ := opAdc_next h
    exact (changesOnly_readOperand s rfl _).trans (changesOnly_addToA _ rfl rfl rfl rfl rfl _)
  | sbcImm | sbcZp | sbcZpX | sbcAbs | sbcAbsX | sbcAbsY | sbcIndX | sbcIndY =>
    obtain ⟨-, rfl⟩ := opSbc_next h
    exact (changesOnly_readOperand s rfl _).trans (changesOnly_addToA _ rfl rfl rfl rfl rfl _)
  | bitZp | bitAbs =>
    cases h
    exact (changesOnly_readOperand s rfl _).trans (changesOnly_setFlags _ (.inr rfl) (.inl rfl) (.inr rfl) (.inr rfl)
      (.inr rfl) (.inl rfl) (.inl rfl))
  | cmpImm | cmpZp | cmpZpX | cmpAbs | cmpAbsX | cmpAbsY | cmpIndX | cmpIndY
  | cpxImm | cpxZp | cpxAbs | cpyImm | cpyZp | cpyAbs =>
    cases h
    exact (changesOnly_readOperand s rfl _).trans (changesOnly_compare _ rfl rfl rfl _ _)
  | staZp | staZpX | staAbs | staAbsX | staAbsY | staIndX | staIndY
  | stxZp | stxZpY | stxAbs | styZp | styZpX | styAbs =>
    cases h
    exact changesOnly_store s rfl _ _
  | incZp | incZpX | incAbs | incAbsX | decZp | decZpX | decAbs | decAbsX =>
    cases h
    exact (changesOnly_modify s rfl _ _).trans (changesOnly_setZN _ rfl rfl _ _)
  | aslAcc | lsrAcc | rolAcc | rorAcc =>
    cases h
    exact (changesOnly_applyShift s rfl rfl .acc (fun _ => rfl) _).trans (changesOnly_setZN _ rfl rfl _ _)
  | aslZp | aslZpX | aslAbs | aslAbsX | lsrZp | lsrZpX | lsrAbs | lsrAbsX
  | rolZp | rolZpX | rolAbs | rolAbsX | rorZp | rorZpX | rorAbs | rorAbsX =>
    cases h
    exact (changesOnly_applyShift s rfl rfl (.mem _) nofun _).trans (changesOnly_setZN _ rfl rfl _ _)
  | tax | tsx | inx | dex =>
    cases h
    exact ((changesOnly_tick s 1).trans (changesOnly_setX _ rfl _)).trans (changesOnly_setZN _ rfl rfl _ _)
  | tay | iny | dey =>
    cases h
    exact ((changesOnly_tick s 1).trans (changesOnly_setY _ rfl _)).trans (changesOnly_setZN _ rfl rfl _ _)
  | txa | tya =>
    cases h
    exact ((changesOnly_tick s 1).trans (changesOnly_setA _ rfl _)).trans (changesOnly_setZN _ rfl rfl _ _)
  | txs => cases h; exact (changesOnly_tick s 1).trans (changesOnly_setSp _ rfl _)
  | clc | sec => cases h; exact (changesOnly_tick s 1).trans (changesOnly_setC _ rfl _)
  | cli | sei => cases h; exact (changesOnly_tick s 1).trans (changesOnly_setI _ rfl _)
  | cld | sed => cases h; exact (changesOnly_tick s 1).trans (changesOnly_setD _ rfl _)
  | clv => cases h; exact (changesOnly_tick s 1).trans (changesOnly_setV _ rfl _)
  | bcc | bcs | beq | bmi | bne | bpl | bvc | bvs => cases h; exact changesOnly_branch s rfl _ _
  | pha | php => cases h; exact (changesOnly_tick s 1).trans (changesOnly_push _ rfl _)
  | pla =>
    cases h
    exact (((changesOnly_tick s 2).trans (changesOnly_pull _ rfl)).trans (changesOnly_setA _ rfl _)).trans
      (changesOnly_setZN _ rfl rfl _ _)
  | plp =>
    cases h
    exact ((changesOnly_tick s 2).trans (changesOnly_pull _ rfl)).trans (changesOnly_unpack _ rfl rfl rfl rfl rfl rfl _)
  | jmpAbs => cases h; exact (changesOnly_takeWord s rfl).trans (changesOnly_setPc _ rfl _)
  | jmpInd =>
    cases h
    exact ((changesOnly_takeWord s rfl).trans (changesOnly_tick _ 2)).trans (changesOnly_setPc _ rfl _)
  | jsr =>
    cases h
    exact (((changesOnly_takeWord s rfl).trans (changesOnly_tick _ 1)).trans (changesOnly_pushWord _ rfl _)).trans
      (changesOnly_setPc _ rfl _)
  | rts =>
    cases h
    exact (((changesOnly_tick s 2).trans (changesOnly_pullWord _ rfl)).trans (changesOnly_setPc _ rfl _)).trans
      (changesOnly_tick _ 1)
  | brk =>
    cases h
    unfold opBrk
    split
    · exact (changesOnly_takeByte s rfl).trans (changesOnly_enterBreak _ rfl rfl rfl rfl)
    · exact (changesOnly_tick s 1).trans (changesOnly_enterBreak _ rfl rfl rfl rfl)
  | rti =>
    cases h
    exact ((((changesOnly_tick s 2).trans (changesOnly_pull _ rfl)).trans
      (changesOnly_unpack _ rfl rfl rfl rfl rfl rfl _)).trans (changesOnly_pullWord _ rfl)).trans
      (changesOnly_setPc _ rfl _)
  | res => exact fun r hr => absurd hr (by cases r <;> decide)
  | nop =>
    cases h
    unfold opNop
    split
    · exact changesOnly_takeByte s rfl
    · exact changesOnly_tick s 1

/-- Settles O16: the clauses for A, X, Y and SP. -/
theorem onlyListedInstructionsWriteRegisters : Obligations.OnlyListedInstructionsWriteRegisters := by
  intro i s t h
  have hw := exec_changesOnly h
  exact ⟨fun ha => of_decide_eq_true (hw.of_changed (r := .a) ha),
    fun hx => of_decide_eq_true (hw.of_changed (r := .x) hx),
    fun hy => of_decide_eq_true (hw.of_changed (r := .y) hy),
    fun hsp => of_decide_eq_true (hw.of_changed (r := .sp) hsp)⟩

/-- Settles O17: the clauses for the seven flags. -/
theorem onlyListedInstructionsWriteFlags : Obligations.OnlyListedInstructionsWriteFlags := by
  intro i s t h
  have hw := exec_changesOnly h
  exact ⟨fun hc => of_decide_eq_true (hw.of_changed (r := .c) hc),
    fun hz => of_decide_eq_true (hw.of_changed (r := .z) hz),
    fun hi => of_decide_eq_true (hw.of_changed (r := .i) hi),
    fun hd => of_decide_eq_true (hw.of_changed (r := .d) hd),
    fun hb => of_decide_eq_true (hw.of_changed (r := .b) hb),
    fun hv => of_decide_eq_true (hw.of_changed (r := .v) hv),
    fun hn => of_decide_eq_true (hw.of_changed (r := .n) hn)⟩

/-! ## The break flag -/

/-- With no byte bound to RES, no record names it (30_encoding.md R103). -/
theorem mnemonic_ne_res_of_rowOf {cfg : Config} {op : Byte} {r : OpRow} (hres : resByte cfg = none)
    (hrow : rowOf cfg op = some r) : r.mnemonic ≠ .res := by
  rw [rowOf, hres, if_neg (by simp)] at hrow
  split at hrow
  next => cases hrow
  next =>
    split at hrow
    next => cases hrow
    next hne => cases hrow; exact hne

theorem eq_brk_of_mnemonic {i : Instr} (h : i.mnemonic = .brk) : i = .brk := by
  cases i <;> cases h
  rfl

theorem opBrk_sets_break (s : State) : (opBrk s).flags.b = true := by
  unfold opBrk
  split <;> rfl

/-- Only BRK and RES are listed for B, and BRK sets it. -/
theorem exec_keeps_break {i : Instr} {s t : State} (hi : i.mnemonic ≠ .res) (hb : s.flags.b = true)
    (h : exec i s = .next t) : t.flags.b = true := by
  by_cases hbrk : i.mnemonic = .brk
  · obtain rfl := eq_brk_of_mnemonic hbrk
    cases h
    exact opBrk_sets_break s
  · have hsame : HostReg.Same .b s t := exec_changesOnly h .b (by simp [mayWrite, hi, hbrk])
    exact Eq.trans hsame hb

/-- Settles O19: an unmapped byte writes no flag, and a mapped one is not RES. -/
theorem noStepClearsTheBreakFlag : Obligations.NoStepClearsTheBreakFlag := by
  intro s t hres hb hstep
  obtain ⟨-, -, ⟨-, rfl⟩ | ⟨r, hrow, hx⟩⟩ := step_next_cases hstep
  · exact hb
  · have hne : (s.takeByte.instrAtPc r).mnemonic ≠ .res :=
      (mnemonic_mode_instr r _ _).1 ▸ mnemonic_ne_res_of_rowOf hres hrow
    exact exec_keeps_break (s := s.takeByte) hne hb hx

/-! ## Nothing computes with I or D

Two runs of one instruction, from a state and from the same state with I and D replaced. -/

/-- The state with I and D replaced. -/
def State.withID (s : State) (p q : Bool) : State := s.setFlags { s.flags with i := p, d := q }

section

variable (s : State) (p q : Bool)

theorem MemOperand.addr_withID (m : MemOperand) : m.addr (s.withID p q) = m.addr s := by
  cases m <;> rfl

theorem MemOperand.cycles_withID (m : MemOperand) (cls : Access) : m.cycles cls (s.withID p q) = m.cycles cls s := by
  cases m <;> rfl

theorem State.ea_withID (m : MemOperand) (cls : Access) :
    (s.withID p q).ea m cls = ((s.ea m cls).1, (s.ea m cls).2.withID p q) := by
  simp only [State.ea_eq, MemOperand.addr_withID, MemOperand.cycles_withID]
  rfl

theorem State.readOperand_withID (o : Operand) :
    (s.withID p q).readOperand o = ((s.readOperand o).1, (s.readOperand o).2.withID p q) := by
  cases o with
  | imm v => rfl
  | mem m => rw [State.readOperand, State.ea_withID]; rfl

theorem State.store_withID (m : MemOperand) (v : Byte) : (s.withID p q).store m v = (s.store m v).withID p q := by
  rw [State.store, State.ea_withID]
  rfl

theorem State.modify_withID (m : MemOperand) (g : Byte → Byte) :
    (s.withID p q).modify m g = ((s.modify m g).1, (s.modify m g).2.1, (s.modify m g).2.2.withID p q) := by
  rw [State.modify, State.ea_withID]
  rfl

theorem State.applyShift_withID (o : ShiftOperand) (g : Byte → Bool → ShiftResult) :
    (s.withID p q).applyShift o g = ((s.applyShift o g).1, (s.applyShift o g).2.withID p q) := by
  cases o with
  | acc => rfl
  | mem m => simp only [State.applyShift, State.modify_withID]; rfl

theorem State.branch_withID (cond : Bool) (off : Byte) :
    (s.withID p q).branch cond off = (s.branch cond off).withID p q := by
  rw [State.branch_eq, State.branch_eq]
  rfl

theorem opNop_withID : opNop (s.withID p q) = (opNop s).withID p q := by
  have hcfg : (s.withID p q).cfg = s.cfg := rfl
  simp only [opNop, hcfg]
  split <;> rfl

end

/-! ### BRK's frame -/

theorem toNat_stackAddr (sp : Byte) : (stackAddr sp).toNat = 0x0100 + sp.toNat := by
  have := sp.isLt
  simp [stackAddr, zext16]
  omega

theorem ne_stackAddr {a : Word} (ha : 0x0200 ≤ a.toNat) (sp : Byte) : a ≠ stackAddr sp := by
  rintro rfl
  have := sp.isLt
  rw [toNat_stackAddr] at ha
  omega

theorem read_breakFrame (s : State) (a : Word) :
    (breakFrame s).read a =
      if a = stackAddr (s.sp - 1 - 1) then pack s.flags ||| 0x10
      else if a = stackAddr (s.sp - 1) then lo s.pc
      else if a = stackAddr s.sp then hi s.pc else s.mem.read a := by
  simp only [breakFrame, Memory.read_write]

/-- The frame lies in page 1: the vectors are as they were. -/
theorem read_breakFrame_above (s : State) {a : Word} (ha : 0x0200 ≤ a.toNat) :
    (breakFrame s).read a = s.mem.read a := by
  simp [read_breakFrame, ne_stackAddr ha]

/-! ### The two runs -/

/-- How the second run's end `u` compares with the first run's end `t`: everything is the same but I, D and memory; where
I, or D, was not replaced it ends the same; and memory differs at most in a pushed status byte. -/
structure Twin (pushed : Word → Prop) (s : State) (p q : Bool) (t u : State) : Prop where
  rest : u = { t with flags := { t.flags with i := u.flags.i, d := u.flags.d }, mem := u.mem }
  i    : p = s.flags.i → u.flags.i = t.flags.i
  d    : q = s.flags.d → u.flags.d = t.flags.d
  mem  : ∀ a, u.mem.read a ≠ t.mem.read a → pushed a ∧
    ∃ k, u.mem.read a = pack (s.withID p q).flags ||| k ∧ t.mem.read a = pack s.flags ||| k

/-- The cell the instruction pushes the status byte to: PHP's, or the third of BRK's. -/
def pushesStatusTo (i : Instr) (s : State) (a : Word) : Prop :=
  (i.mnemonic = .php ∧ a = stackAddr s.sp) ∨ (i.mnemonic = .brk ∧ a = stackAddr (s.sp - 2))

theorem Twin.mono {pushed pushed' : Word → Prop} {s s' t u : State} {p q : Bool} (h : Twin pushed s p q t u)
    (hf : s.flags = s'.flags) (hp : ∀ a, pushed a → pushed' a) : Twin pushed' s' p q t u where
  rest := h.rest
  i e := h.i (by rw [e, hf])
  d e := h.d (by rw [e, hf])
  mem a hne := by
    obtain ⟨hcell, k, hu, ht⟩ := h.mem a hne
    exact ⟨hp a hcell, k, by simpa only [State.withID, State.setFlags_flags, hf] using hu, hf ▸ ht⟩

theorem twin_enterBreak (s : State) (p q : Bool) :
    Twin (· = stackAddr (s.sp - 2)) s p q s.enterBreak (s.withID p q).enterBreak := by
  have hsp : s.sp - 1 - 1 = s.sp - 2 := by rw [BitVec.sub_sub]; rfl
  simp only [State.enterBreak_eq, read_breakFrame_above _ (a := breakVector) (by decide),
    read_breakFrame_above _ (a := breakVector + 1) (by decide)]
  refine ⟨rfl, fun _ => rfl, id, fun a hne => ?_⟩
  simp only [read_breakFrame] at hne ⊢
  by_cases ha : a = stackAddr (s.sp - 1 - 1)
  · exact ⟨hsp ▸ ha, 0x10, if_pos ha, if_pos ha⟩
  · exact absurd ((if_neg ha).trans (if_neg ha).symm) hne

theorem twin_brk (s : State) (p q : Bool) :
    Twin (pushesStatusTo .brk s) s p q (opBrk s) (opBrk (s.withID p q)) := by
  have hcfg : (s.withID p q).cfg = s.cfg := rfl
  simp only [opBrk, hcfg]
  split
  · exact (twin_enterBreak s.takeByte p q).mono rfl fun _ ha => .inr ⟨rfl, ha⟩
  · exact (twin_enterBreak (s.tick 1) p q).mono rfl fun _ ha => .inr ⟨rfl, ha⟩

theorem twin_php (s : State) (p q : Bool) :
    Twin (pushesStatusTo .php s) s p q (opPhp s) (opPhp (s.withID p q)) := by
  have hmem : ∀ s' : State, (opPhp s').mem = s'.mem.write (stackAddr s'.sp) (pack s'.flags) := fun _ => rfl
  refine ⟨rfl, id, id, fun a hne => ?_⟩
  simp only [hmem, Memory.read_write] at hne ⊢
  by_cases ha : a = stackAddr s.sp
  · exact ⟨.inl ⟨rfl, ha⟩, 0#8, (if_pos ha).trans BitVec.or_zero.symm, (if_pos ha).trans BitVec.or_zero.symm⟩
  · exact absurd ((if_neg ha).trans (if_neg ha).symm) hne

/-- The policy is binary, or D is not replaced: ADC and SBC are refused in both runs or in neither. -/
theorem decimalRefused_withID {s : State} {q : Bool} (hq : q = s.flags.d ∨ s.cfg.decimalPolicy = .binary) (p : Bool) :
    decimalRefused (s.withID p q) = decimalRefused s := by
  obtain rfl | hbin := hq
  · rfl
  · have hcfg : (s.withID p q).cfg = s.cfg := rfl
    rw [Bool.eq_iff_iff, decimalRefused_iff, decimalRefused_iff]
    simp [hcfg, hbin]

section

variable {i : Instr} {s t : State} {p q : Bool}

theorem opAdc_withID {o : Operand} (hq : q = s.flags.d ∨ s.cfg.decimalPolicy = .binary) (h : opAdc o s = .next t) :
    opAdc o (s.withID p q) = .next (t.withID p q) := by
  obtain ⟨hd, rfl⟩ := opAdc_next h
  rw [opAdc, decimalRefused_withID hq, hd, State.readOperand_withID]
  rfl

theorem opSbc_withID {o : Operand} (hq : q = s.flags.d ∨ s.cfg.decimalPolicy = .binary) (h : opSbc o s = .next t) :
    opSbc o (s.withID p q) = .next (t.withID p q) := by
  obtain ⟨hd, rfl⟩ := opSbc_next h
  rw [opSbc, decimalRefused_withID hq, hd, State.readOperand_withID]
  rfl

/-- An instruction that does not write I or D and carries the replaced flags through. -/
theorem twin_of_carried (h : exec i s = .next t) (hi : mayWrite i .i = false) (hd : mayWrite i .d = false)
    (hu : exec i (s.withID p q) = .next (t.withID p q)) :
    ∃ u, exec i (s.withID p q) = .next u ∧ Twin (pushesStatusTo i s) s p q t u :=
  have hsi : t.flags.i = s.flags.i := exec_changesOnly h .i hi
  have hsd : t.flags.d = s.flags.d := exec_changesOnly h .d hd
  ⟨_, hu, rfl, fun e => e.trans hsi.symm, fun e => e.trans hsd.symm, fun _ hne => absurd rfl hne⟩

/-- No instruction computes with I or D: it carries them through, writes them, or pushes them in the status byte. -/
theorem exec_twin (hq : q = s.flags.d ∨ s.cfg.decimalPolicy = .binary) (h : exec i s = .next t) :
    ∃ u, exec i (s.withID p q) = .next u ∧ Twin (pushesStatusTo i s) s p q t u := by
  cases i with
  | ldaImm | ldaZp | ldaZpX | ldaAbs | ldaAbsX | ldaAbsY | ldaIndX | ldaIndY
  | ldxImm | ldxZp | ldxZpY | ldxAbs | ldxAbsY
  | ldyImm | ldyZp | ldyZpX | ldyAbs | ldyAbsX
  | andImm | andZp | andZpX | andAbs | andAbsX | andAbsY | andIndX | andIndY
  | eorImm | eorZp | eorZpX | eorAbs | eorAbsX | eorAbsY | eorIndX | eorIndY
  | oraImm | oraZp | oraZpX | oraAbs | oraAbsX | oraAbsY | oraIndX | oraIndY
  | bitZp | bitAbs
  | cmpImm | cmpZp | cmpZpX | cmpAbs | cmpAbsX | cmpAbsY | cmpIndX | cmpIndY
  | cpxImm | cpxZp | cpxAbs | cpyImm | cpyZp | cpyAbs =>
    cases h
    refine twin_of_carried rfl rfl rfl (congrArg Host.Outcome.next ?_)
    simp only [opLda, opLdx, opLdy, opAnd, opEor, opOra, opBit, opCmp, opCpx, opCpy, State.readOperand_withID]
    rfl
  | adcImm | adcZp | adcZpX | adcAbs | adcAbsX | adcAbsY | adcIndX | adcIndY =>
    exact twin_of_carried h rfl rfl (opAdc_withID hq h)
  | sbcImm | sbcZp | sbcZpX | sbcAbs | sbcAbsX | sbcAbsY | sbcIndX | sbcIndY =>
    exact twin_of_carried h rfl rfl (opSbc_withID hq h)
  | staZp | staZpX | staAbs | staAbsX | staAbsY | staIndX | staIndY
  | stxZp | stxZpY | stxAbs | styZp | styZpX | styAbs =>
    cases h
    exact twin_of_carried rfl rfl rfl (congrArg Host.Outcome.next (State.store_withID ..))
  | incZp | incZpX | incAbs | incAbsX | decZp | decZpX | decAbs | decAbsX =>
    cases h
    refine twin_of_carried rfl rfl rfl (congrArg Host.Outcome.next ?_)
    simp only [opInc, opDec, State.modify_withID]
    rfl
  | aslAcc | aslZp | aslZpX | aslAbs | aslAbsX
  | lsrAcc | lsrZp | lsrZpX | lsrAbs | lsrAbsX
  | rolAcc | rolZp | rolZpX | rolAbs | rolAbsX
  | rorAcc | rorZp | rorZpX | rorAbs | rorAbsX =>
    cases h
    refine twin_of_carried rfl rfl rfl (congrArg Host.Outcome.next ?_)
    simp only [opAsl, opLsr, opRol, opRor, State.applyShift_withID]
    rfl
  | bcc | bcs | beq | bmi | bne | bpl | bvc | bvs =>
    cases h
    exact twin_of_carried rfl rfl rfl (congrArg Host.Outcome.next (State.branch_withID ..))
  | tax | tay | txa | tya | tsx | txs | inx | iny | dex | dey | clc | sec | clv
  | pha | pla | jmpAbs | jmpInd | jsr | rts =>
    cases h
    exact twin_of_carried rfl rfl rfl rfl
  | nop =>
    cases h
    exact twin_of_carried rfl rfl rfl (congrArg Host.Outcome.next (opNop_withID ..))
  | cli | sei =>
    cases h
    exact ⟨_, rfl, rfl, fun _ => rfl, id, fun _ hne => absurd rfl hne⟩
  | cld | sed =>
    cases h
    exact ⟨_, rfl, rfl, id, fun _ => rfl, fun _ hne => absurd rfl hne⟩
  | plp | rti | res =>
    cases h
    exact ⟨_, rfl, rfl, fun _ => rfl, fun _ => rfl, fun _ hne => absurd rfl hne⟩
  | php =>
    cases h
    exact ⟨_, rfl, twin_php ..⟩
  | brk =>
    cases h
    exact ⟨_, rfl, twin_brk ..⟩

end

theorem fetches_of_rowOf {s : State} {r : OpRow} {mn : Mnemonic} (hrow : rowOf s.cfg (s.mem.read s.pc) = some r)
    (hmn : (s.takeByte.instrAtPc r).mnemonic = mn) : fetches s mn :=
  ⟨r.mode, by rw [dispatchOf_of_rowOf hrow, ← hmn, State.instrAtPc, (mnemonic_mode_instr r _ _).1]⟩

/-- The same for a step: the fetch and the dispatch do not see I or D. -/
theorem step_twin {s t : State} {p q : Bool} (hq : q = s.flags.d ∨ s.cfg.decimalPolicy = .binary)
    (h : step s = .next t) :
    ∃ u, step (s.withID p q) = .next u ∧ Twin (isPushedStatusCell s) s p q t u := by
  obtain ⟨hm, hr, ⟨hrow, rfl⟩ | ⟨r, hrow, hx⟩⟩ := step_next_cases h
  · exact ⟨_, step_of_unmapped (s := s.withID p q) hm hr hrow, rfl, id, id, fun _ hne => absurd rfl hne⟩
  · obtain ⟨u, hu, htwin⟩ := exec_twin (s := s.takeByte) hq hx
    refine ⟨u, (step_of_mapped (s := s.withID p q) hm hr hrow).trans hu, htwin.mono rfl fun a ha => ?_⟩
    exact ha.imp (.imp_left (fetches_of_rowOf hrow)) (.imp_left (fetches_of_rowOf hrow))

/-- Status bytes of flags that differ in D alone differ in bit 3 alone. -/
theorem pack_setD_or (f : Flags) (d : Bool) (k : Byte) :
    pack { f with d := d } ||| k ||| 0x08 = pack f ||| k ||| 0x08 := by
  ext j hj
  interval_cases j <;> simp [pack]

/-- Settles O21: the two runs of `step_twin` with D alone replaced. -/
theorem decimalFlagChangesNoBinaryComputation : Obligations.DecimalFlagChangesNoBinaryComputation := by
  intro s t v hbin h
  obtain ⟨u, hu, hrest, hi, -, hmem⟩ := step_twin (p := s.flags.i) (q := v) (.inr hbin) h
  have hflags : { u.flags with d := t.flags.d } = t.flags := calc
    _ = { t.flags with i := u.flags.i } := congrArg (fun u' : State => { u'.flags with d := t.flags.d }) hrest
    _ = t.flags := by rw [hi rfl]
  refine ⟨u, hu, ?_, ?_, ?_, ?_, ?_, ?_, ?_, hflags, fun a hne => ?mem⟩
  case mem =>
    obtain ⟨hcell, k, hua, hta⟩ := hmem a hne
    rw [hua, hta]
    exact ⟨hcell, pack_setD_or s.flags v k⟩
  all_goals rw [hrest]

end Sys2Proof.Machine

namespace Sys2Proof.Machine

open Sys2Proof.Says

/-! PROOFS. Memory's statements: pull undoes push, and the next fetch sees every byte written. -/

/-! ## The stack's cells -/

@[simp] theorem stackAddr_inj {p q : Byte} : stackAddr p = stackAddr q ↔ p = q := by
  refine ⟨fun h => BitVec.eq_of_toNat_eq ?_, congrArg stackAddr⟩
  have hnat := congrArg BitVec.toNat h
  rw [toNat_stackAddr, toNat_stackAddr] at hnat
  omega

theorem sub_one_sub_one (b : Byte) : b - 1 - 1 = b - 2 := by
  rw [BitVec.sub_sub]
  rfl

theorem stackAddr_ne_sub_one (sp : Byte) : stackAddr sp ≠ stackAddr (sp - 1) := by
  rw [Ne, stackAddr_inj]
  bv_omega

theorem stackAddr_ne_sub_two (sp : Byte) : stackAddr sp ≠ stackAddr (sp - 1 - 1) := by
  rw [Ne, stackAddr_inj]
  bv_omega

/-! ## What a pushed word and a break frame leave in their cells -/

theorem read_pushWord (s : State) (w : Word) (a : Word) :
    (s.pushWord w).mem.read a =
      if a = stackAddr (s.sp - 1) then lo w else if a = stackAddr s.sp then hi w else s.mem.read a := by
  simp only [State.pushWord_eq, Memory.read_write]

theorem read_pushWord_high (s : State) (w : Word) : (s.pushWord w).mem.read (stackAddr s.sp) = hi w := by
  rw [read_pushWord, if_neg (stackAddr_ne_sub_one _), if_pos rfl]

theorem read_pushWord_low (s : State) (w : Word) : (s.pushWord w).mem.read (stackAddr (s.sp - 1)) = lo w := by
  rw [read_pushWord, if_pos rfl]

theorem read_breakFrame_high (s : State) : (breakFrame s).read (stackAddr s.sp) = hi s.pc := by
  rw [read_breakFrame, if_neg (stackAddr_ne_sub_two _), if_neg (stackAddr_ne_sub_one _), if_pos rfl]

theorem read_breakFrame_low (s : State) : (breakFrame s).read (stackAddr (s.sp - 1)) = lo s.pc := by
  rw [read_breakFrame, if_neg (stackAddr_ne_sub_one _), if_pos rfl]

theorem read_breakFrame_status (s : State) :
    (breakFrame s).read (stackAddr (s.sp - 2)) = pack s.flags ||| 0x10 := by
  rw [read_breakFrame, sub_one_sub_one, if_pos rfl]

/-! ## Pull undoes push -/

/-- The push wrote the cell that the pull finds above the lowered SP. -/
theorem pull_push (s : State) (v : Byte) :
    (s.push v).pull = (v, { s with mem := (s.push v).mem, clock := s.clock + 2 }) := by
  simp [State.pull_eq, State.push_eq]

theorem pullWord_pushWord (s : State) (w : Word) :
    (s.pushWord w).pullWord = (w, { s with mem := (s.pushWord w).mem, clock := s.clock + 4 }) := by
  have hsp : (s.pushWord w).sp = s.sp - 1 - 1 := rfl
  rw [State.pullWord_eq, hsp, BitVec.sub_add_cancel, BitVec.sub_add_cancel, read_pushWord_low, read_pushWord_high,
    Laws.word_lo_hi]
  rfl

/-- Settles O25: the cells the pushes wrote are the ones the pulls read, and they are the only ones written. -/
theorem pullUndoesPush : Obligations.PullUndoesPush := by
  refine ⟨toNat_stackAddr, fun s v w => ?_⟩
  refine ⟨⟨_, pull_push s v, fun a ha => ?_⟩, ⟨_, pullWord_pushWord s w, fun a ha ha' => ?_⟩⟩
  · rw [State.push_eq, Memory.read_write, if_neg ha]
  · rw [read_pushWord, if_neg ha', if_neg ha]

/-! ## The fetch reads memory as it is -/

/-- Decoding looks at memory itself: there is no earlier copy of a byte that it could see. -/
theorem getElem?_bytesAtPc (t : State) {k : Nat} (hk : k < 3) :
    t.bytesAtPc[k]? = some (t.mem.read (t.pc + BitVec.ofNat 16 k)) := by
  have hnext : t.pc + 1 + 1 = t.pc + 2 := BitVec.add_assoc ..
  match k with
  | 0 => rw [BitVec.add_zero]; rfl
  | 1 => rfl
  | 2 => exact congrArg (fun a => some (t.mem.read a)) hnext

theorem seenByFetch_of_read {t : State} {a : Word} {v : Byte} (h : t.mem.read a = v) : seenByFetch t a v := by
  rintro k hk rfl
  rw [getElem?_bytesAtPc t hk, h]

theorem seenByFetch_of_write {t : State} {m : Memory} {a : Word} {v : Byte} (h : t.mem = m.write a v) :
    seenByFetch t a v :=
  seenByFetch_of_read (by rw [h, Memory.read_write, if_pos rfl])

/-! ## The shifts and rotates, said once for the four mnemonics -/

/-- The document's shift and rotate in numbers, as a function for `State.applyShift`. -/
def shiftFn (mn : Mnemonic) (v : Byte) (c : Bool) : ShiftResult :=
  ⟨BitVec.ofNat 8 (shiftOf mn v c).1, (shiftOf mn v c).2⟩

/-- The operation of a shift or rotate by its mnemonic. -/
def opShift (mn : Mnemonic) (o : ShiftOperand) (s : State) : State :=
  let q := s.applyShift o (shiftFn mn)
  q.2.setFlags (setZN q.1 q.2.flags)

theorem shiftLeft_one_eq (v : Byte) : v <<< 1 = BitVec.ofNat 8 (v.toNat * 2 % 256) := by
  apply BitVec.eq_of_toNat_eq
  simp [BitVec.toNat_shiftLeft, Nat.shiftLeft_eq]

theorem shiftRight_one_eq (v : Byte) : v >>> 1 = BitVec.ofNat 8 (v.toNat / 2) := by
  apply BitVec.eq_of_toNat_eq
  have := v.isLt
  simp only [BitVec.toNat_ushiftRight, BitVec.toNat_ofNat, Nat.shiftRight_eq_div_pow]
  omega

/-- A left shift leaves bit 0 free, so the carry put there is added. -/
theorem shiftLeft_or_carry (v : Byte) (c : Bool) :
    v <<< 1 ||| flagBit c 0 = BitVec.ofNat 8 (v.toNat * 2 % 256 + c.toNat) := by
  have hfree : v <<< 1 &&& flagBit c 0 = 0#8 := by
    ext j hj
    interval_cases j <;> simp
  have hc : flagBit c 0 = BitVec.ofNat 8 c.toNat := by cases c <;> rfl
  rw [← BitVec.add_eq_or_of_and_eq_zero _ _ hfree, shiftLeft_one_eq, hc, BitVec.ofNat_add]

/-- A right shift leaves bit 7 free, so the carry put there is added. -/
theorem shiftRight_or_carry (v : Byte) (c : Bool) :
    v >>> 1 ||| flagBit c 7 = BitVec.ofNat 8 (v.toNat / 2 + c.toNat * 128) := by
  have hfree : v >>> 1 &&& flagBit c 7 = 0#8 := by
    ext j hj
    interval_cases j <;> simp
  have hc : flagBit c 7 = BitVec.ofNat 8 (c.toNat * 128) := by cases c <;> rfl
  rw [← BitVec.add_eq_or_of_and_eq_zero _ _ hfree, shiftRight_one_eq, hc, BitVec.ofNat_add]

theorem aslFn_eq : aslFn = shiftFn .asl := by
  funext v c
  rw [aslFn, shiftLeft_one_eq]
  rfl

theorem lsrFn_eq : lsrFn = shiftFn .lsr := by
  funext v c
  rw [lsrFn, shiftRight_one_eq]
  rfl

theorem rolFn_eq : rolFn = shiftFn .rol := by
  funext v c
  rw [rolFn, shiftLeft_or_carry]
  rfl

theorem rorFn_eq : rorFn = shiftFn .ror := by
  funext v c
  rw [rorFn, shiftRight_or_carry]
  rfl

/-- LSR shifts a 0 into bit 7, so the N it clears is the result's bit 7. -/
theorem applyShift_lsrFn_bit7 (s : State) (o : ShiftOperand) : (s.applyShift o lsrFn).1.getLsbD 7 = false := by
  cases o with
  | acc => simp [State.applyShift_acc, lsrFn]
  | mem m => simp [State.applyShift_mem, lsrFn]

theorem opAsl_eq (o : ShiftOperand) (s : State) : opAsl o s = opShift .asl o s := by
  rw [opAsl, aslFn_eq, opShift]

theorem opLsr_eq (o : ShiftOperand) (s : State) : opLsr o s = opShift .lsr o s := by
  rw [opShift, ← lsrFn_eq, setZN, applyShift_lsrFn_bit7, opLsr]

theorem opRol_eq (o : ShiftOperand) (s : State) : opRol o s = opShift .rol o s := by
  rw [opRol, rolFn_eq, opShift]

theorem opRor_eq (o : ShiftOperand) (s : State) : opRor o s = opShift .ror o s := by
  rw [opRor, rorFn_eq, opShift]

/-- ASL, LSR, ROL or ROR in any of its modes: on A, or on a memory cell. -/
theorem exec_shift {i : Instr} (h : i.mnemonic ∈ shifts) (s : State) :
    (i.mode = .accumulator ∧ exec i s = .next (opShift i.mnemonic .acc s)) ∨
    (i.mode ≠ .accumulator ∧ ∃ m, memOperand? i = some m ∧ m.bytes = i.mode.operandCount ∧
      exec i s = .next (opShift i.mnemonic (.mem m) s)) := by
  simp only [shifts, List.mem_cons, List.not_mem_nil, or_false] at h
  obtain h | h | h | h := h
  · simpa only [h, opAsl_eq] using exec_asl h s
  · simpa only [h, opLsr_eq] using exec_lsr h s
  · simpa only [h, opRol_eq] using exec_rol h s
  · simpa only [h, opRor_eq] using exec_ror h s

/-- A shift with a memory operand is not the accumulator form. -/
theorem exec_shift_mem {i : Instr} (h : i.mnemonic ∈ shifts) {m : MemOperand} (hm : memOperand? i = some m)
    (s : State) : exec i s = .next (opShift i.mnemonic (.mem m) s) := by
  obtain ⟨hacc, -⟩ | ⟨-, m', hm', -, hx⟩ := exec_shift h s
  · simp [memOperand?, memOperandOf, hacc] at hm
  · rwa [Option.some.inj (hm.symm.trans hm')]

/-! ## What a storing instruction writes -/

theorem State.store_mem (s : State) (m : MemOperand) (v : Byte) : (s.store m v).mem = s.mem.write (m.addr s) v := by
  rw [State.store_eq]

theorem opInc_mem (s : State) (m : MemOperand) :
    (opInc m s).mem = s.mem.write (m.addr s) (s.mem.read (m.addr s) + 1) := by
  rw [opInc, State.modify_eq]
  rfl

theorem opDec_mem (s : State) (m : MemOperand) :
    (opDec m s).mem = s.mem.write (m.addr s) (s.mem.read (m.addr s) - 1) := by
  rw [opDec, State.modify_eq]
  rfl

theorem opShift_mem (mn : Mnemonic) (s : State) (m : MemOperand) :
    (opShift mn (.mem m) s).mem =
      s.mem.write (m.addr s) (BitVec.ofNat 8 (shiftOf mn (s.mem.read (m.addr s)) s.flags.c).1) := by
  rw [opShift, State.applyShift_mem]
  rfl

theorem opJsr_mem (a : Word) (s : State) : (opJsr a s).mem = (s.pushWord (s.pc + 1)).mem := by
  have hpc : s.pc + 2 - 1 = s.pc + 1 := by bv_omega
  rw [opJsr, State.takeWord_eq]
  simp only [State.tick_pc, hpc]
  rfl

/-- BRK's frame holds the return address its signature setting gives (49_flag_interrupt_misc.md R163). -/
theorem opBrk_mem (s : State) :
    (opBrk s).mem = breakFrame (s.setPc (if s.cfg.brkSignature then s.pc + 1 else s.pc)) := by
  unfold opBrk
  split <;> rw [State.enterBreak_eq] <;> rfl

/-! ## What a storing instruction writes, the next fetch sees -/

section

variable {i : Instr} {s t : State} {m : MemOperand} (hm : memOperand? i = some m) (h : exec i s = .next t)
include hm h

/-- An instruction has one memory operand, so what is written at some operand of `i` is written at `m`. -/
theorem seenByFetch_of_operation {op : MemOperand → State → State} {a : Word} {v : Byte}
    (hop : ∃ m, memOperand? i = some m ∧ m.bytes = i.mode.operandCount ∧ exec i s = .next (op m s))
    (hmem : (op m s).mem = s.mem.write a v) : seenByFetch t a v := by
  obtain ⟨m', hm', -, hx⟩ := hop
  obtain rfl : m = m' := Option.some.inj (hm.symm.trans hm')
  obtain rfl : t = op m s := Host.Outcome.next.inj (h.symm.trans hx)
  exact seenByFetch_of_write hmem

theorem seenByFetch_of_memOperand :
    let a := m.addr s
    (i.mnemonic = .sta → seenByFetch t a s.a) ∧
    (i.mnemonic = .stx → seenByFetch t a s.x) ∧
    (i.mnemonic = .sty → seenByFetch t a s.y) ∧
    (i.mnemonic = .inc → seenByFetch t a (s.mem.read a + 1)) ∧
    (i.mnemonic = .dec → seenByFetch t a (s.mem.read a - 1)) ∧
    (i.mnemonic ∈ shifts → seenByFetch t a (BitVec.ofNat 8 (shiftOf i.mnemonic (s.mem.read a) s.flags.c).1)) := by
  refine ⟨fun hi => ?_, fun hi => ?_, fun hi => ?_, fun hi => ?_, fun hi => ?_, fun hi => ?_⟩
  · exact seenByFetch_of_operation hm h (exec_sta hi s) (State.store_mem ..)
  · exact seenByFetch_of_operation hm h (exec_stx hi s) (State.store_mem ..)
  · exact seenByFetch_of_operation hm h (exec_sty hi s) (State.store_mem ..)
  · exact seenByFetch_of_operation hm h (exec_inc hi s) (opInc_mem ..)
  · exact seenByFetch_of_operation hm h (exec_dec hi s) (opDec_mem ..)
  · obtain rfl := Host.Outcome.next.inj (h.symm.trans (exec_shift_mem hi hm s))
    exact seenByFetch_of_write (opShift_mem ..)

end

theorem seenByFetch_opJsr (a : Word) (s : State) :
    seenByFetch (opJsr a s) (stackAddr s.sp) (hi (s.pc + 1)) ∧
      seenByFetch (opJsr a s) (stackAddr (s.sp - 1)) (lo (s.pc + 1)) := by
  constructor <;> apply seenByFetch_of_read <;> rw [opJsr_mem]
  · exact read_pushWord_high ..
  · exact read_pushWord_low ..

theorem seenByFetch_opBrk (s : State) :
    let ret := if s.cfg.brkSignature then s.pc + 1 else s.pc
    seenByFetch (opBrk s) (stackAddr s.sp) (hi ret) ∧ seenByFetch (opBrk s) (stackAddr (s.sp - 1)) (lo ret) ∧
      seenByFetch (opBrk s) (stackAddr (s.sp - 2)) (pack s.flags ||| 0x10) := by
  refine ⟨?_, ?_, ?_⟩ <;> apply seenByFetch_of_read <;> rw [opBrk_mem]
  · exact read_breakFrame_high _
  · exact read_breakFrame_low _
  · exact read_breakFrame_status _

/-- Settles O34: every listed write is in the memory that the next fetch reads. -/
theorem storeIsSeenByTheNextFetch : Obligations.StoreIsSeenByTheNextFetch := by
  intro i s t h
  refine ⟨fun m hm => ?_, ?_, ?_, ?_, ?_⟩
  · simp only [State.ea_eq]
    exact seenByFetch_of_memOperand hm h
  · rintro rfl
    cases h
    exact seenByFetch_of_write rfl
  · rintro rfl
    cases h
    exact seenByFetch_of_write rfl
  · rintro a rfl
    cases h
    exact seenByFetch_opJsr a s
  · rintro rfl
    cases h
    exact seenByFetch_opBrk s

end Sys2Proof.Machine

namespace Sys2Proof.Machine

open Sys2Proof.Says Sys2Proof.Laws

/-! PROOFS. Encoding's statements: the decoder accepts exactly an opcode byte of the pair followed by the operand bytes;
the dispatch of a byte, and the default map; the step of a decoded or unmapped byte; the resolver's modes in numbers; and
which instructions write memory. -/

/-! ## An instruction is its pair and its operand bytes -/

section

open PartsRoundTrip

theorem partsRoundTrip (i : Instr) : PartsRoundTrip.Statement i :=
  i.casesOn (motive := PartsRoundTrip.Statement)
    ldaImm ldaZp ldaZpX ldaAbs ldaAbsX ldaAbsY ldaIndX ldaIndY ldxImm ldxZp ldxZpY ldxAbs ldxAbsY ldyImm ldyZp
    ldyZpX ldyAbs ldyAbsX tax tay txa tya tsx txs staZp staZpX staAbs staAbsX staAbsY staIndX staIndY stxZp stxZpY
    stxAbs styZp styZpX styAbs pha php pla plp andImm andZp andZpX andAbs andAbsX andAbsY andIndX andIndY eorImm
    eorZp eorZpX eorAbs eorAbsX eorAbsY eorIndX eorIndY oraImm oraZp oraZpX oraAbs oraAbsX oraAbsY oraIndX oraIndY
    bitZp bitAbs adcImm adcZp adcZpX adcAbs adcAbsX adcAbsY adcIndX adcIndY sbcImm sbcZp sbcZpX sbcAbs sbcAbsX
    sbcAbsY sbcIndX sbcIndY cmpImm cmpZp cmpZpX cmpAbs cmpAbsX cmpAbsY cmpIndX cmpIndY cpxImm cpxZp cpxAbs cpyImm
    cpyZp cpyAbs incZp incZpX incAbs incAbsX inx iny decZp decZpX decAbs decAbsX dex dey aslAcc aslZp aslZpX
    aslAbs aslAbsX lsrAcc lsrZp lsrZpX lsrAbs lsrAbsX rolAcc rolZp rolZpX rolAbs rolAbsX rorAcc rorZp rorZpX
    rorAbs rorAbsX bcc bcs beq bmi bne bpl bvc bvs jmpAbs jmpInd jsr rts clc cld cli clv sec sed sei brk rti res
    nop

end

theorem operandBytes_length (i : Instr) : i.operandBytes.length = i.mode.operandCount :=
  (partsRoundTrip i).1

theorem operandCount_le_two (mode : Mode) : mode.operandCount ≤ 2 := by
  cases mode <;> decide

/-- The pair and the operand bytes fix the instruction: taken apart and put together again it is itself. -/
theorem eq_of_parts {i j : Instr} (hmn : i.mnemonic = j.mnemonic) (hmode : i.mode = j.mode)
    (hbytes : i.operandBytes = j.operandBytes) : i = j := by
  have hi := (partsRoundTrip i).2
  rw [hmn, hmode, hbytes, (partsRoundTrip j).2] at hi
  exact (Option.some.inj hi).symm

theorem operandBytes_of_ofParts {mn : Mnemonic} {mode : Mode} {b h : Byte} {i : Instr}
    (hi : Instr.ofParts mn mode b h = some i) : i.operandBytes = [b, h].take mode.operandCount := by
  cases mn <;> cases mode <;> cases hi <;>
    simp [Instr.operandBytes, Instr.parts, Mode.operandCount]

/-- A record's instruction has the first of the two bytes given, as many as the record's mode takes. -/
theorem operandBytes_instr (r : OpRow) (b h : Byte) :
    (r.instr b h).operandBytes = [b, h].take r.mode.operandCount :=
  operandBytes_of_ofParts (Option.some_get (Instr.ofParts_isSome r.legal b h)).symm

/-- An instruction of the record's pair is what the record makes of its operand bytes, whatever byte follows them. -/
theorem instr_eq_iff {r : OpRow} {b h : Byte} {i : Instr} :
    r.instr b h = i ↔
      r.mnemonic = i.mnemonic ∧ r.mode = i.mode ∧ i.operandBytes = [b, h].take i.mode.operandCount := by
  obtain ⟨hmn, hmode⟩ := mnemonic_mode_instr r b h
  constructor
  · rintro rfl
    exact ⟨hmn.symm, hmode.symm, hmode ▸ operandBytes_instr r b h⟩
  · rintro ⟨hmn', hmode', hbytes⟩
    exact eq_of_parts (hmn.trans hmn') (hmode.trans hmode') (by rw [operandBytes_instr, hmode', hbytes])

/-! ## What the decoder accepts -/

/-- The decoder's answer is an instruction exactly when its operand bytes are the first ones there (R75, R76). -/
theorem decodeOperands_eq_instr_iff {r : OpRow} {bytes rest : List Byte} {i : Instr} :
    decodeOperands r bytes = .instr i rest ↔
      r.mnemonic = i.mnemonic ∧ r.mode = i.mode ∧ bytes = i.operandBytes ++ rest := by
  constructor
  · intro h
    unfold decodeOperands at h
    split at h <;> cases h
    all_goals next hcount => simp [mnemonic_mode_instr, operandBytes_instr, hcount]
  · rintro ⟨hmn, hmode, rfl⟩
    have hcount : r.mode.operandCount = i.operandBytes.length := by rw [operandBytes_length, hmode]
    have hinstr : ∀ b h, i.operandBytes = [b, h].take r.mode.operandCount → r.instr b h = i := fun _ _ hbytes =>
      instr_eq_iff.2 ⟨hmn, hmode, hmode ▸ hbytes⟩
    unfold decodeOperands
    rw [hcount] at hinstr ⊢
    match hbytes : i.operandBytes with
    | [] => exact congrArg (Decoded.instr · rest) (hinstr 0 0 (by simp [hbytes]))
    | [b] => exact congrArg (Decoded.instr · rest) (hinstr b 0 (by simp [hbytes]))
    | [b, h] => exact congrArg (Decoded.instr · rest) (hinstr b h (by simp [hbytes]))
    | _ :: _ :: _ :: _ =>
      have hle := operandCount_le_two r.mode
      simp [hcount, hbytes] at hle

/-- The bytes that decode to an instruction: an opcode byte that DISPATCH gives its pair, its operand bytes, and any rest
(R75, R102). -/
theorem decode_eq_instr_iff {cfg : Config} {bytes rest : List Byte} {i : Instr} :
    decode cfg bytes = .instr i rest ↔
      ∃ op, bytes = op :: (i.operandBytes ++ rest) ∧ dispatchOf cfg op = some (i.mnemonic, i.mode) := by
  cases bytes with
  | nil => simp [decode]
  | cons op tail =>
    cases hrow : rowOf cfg op with
    | none => simp [decode, dispatchOf, hrow]
    | some r => simp [decode, dispatchOf, hrow, decodeOperands_eq_instr_iff, and_comm, and_assoc]

/-- Settles O2: the decoder accepts no other bytes. -/
theorem decodedBytesSpellTheInstruction : Obligations.DecodedBytesSpellTheInstruction := by
  intro cfg bytes rest i h
  obtain ⟨op, hbytes, hop⟩ := decode_eq_instr_iff.1 h
  exact ⟨op, hbytes, hop, operandBytes_length i⟩

/-! ## The dispatch of a byte, and a pair's opcode byte -/

/-- A byte's entry: RES where it is bound, else the record of the supplied table, if that does not name RES (R103). -/
theorem rowOf_eq_some_iff {cfg : Config} {op : Byte} {r : OpRow} :
    rowOf cfg op = some r ↔
      (resByte cfg = some op ∧ r = ⟨op, .res, .implied, rfl⟩) ∨
      (resByte cfg ≠ some op ∧ lookupRow cfg.dispatch op = some r ∧ r.mnemonic ≠ .res) := by
  by_cases hres : resByte cfg = some op
  · simp [rowOf, hres, eq_comm]
  · have hrow : rowOf cfg op = (lookupRow cfg.dispatch op).filter (·.mnemonic ≠ .res) := by
      rw [rowOf, if_neg hres]
      cases lookupRow cfg.dispatch op <;> simp [Option.filter]
    simp [hres, hrow, Option.filter_eq_some_iff]

theorem dispatchOf_eq_some_iff {cfg : Config} {op : Byte} {mn : Mnemonic} {mode : Mode} :
    dispatchOf cfg op = some (mn, mode) ↔ ∃ r, rowOf cfg op = some r ∧ r.mnemonic = mn ∧ r.mode = mode := by
  simp [dispatchOf]

theorem dispatchOf_eq_none_iff {cfg : Config} {op : Byte} : dispatchOf cfg op = none ↔ rowOf cfg op = none := by
  simp [dispatchOf]

theorem resByte_eq_some_iff {cfg : Config} {op : Byte} :
    resByte cfg = some op ↔ cfg.resOpcode = some op ∧ lookupRow defaultDispatch op = none := by
  cases hres : cfg.resOpcode with
  | none => simp [resByte, hres]
  | some q =>
    simp only [resByte, hres, Option.ite_none_right_eq_some, Option.some.injEq]
    constructor
    · rintro ⟨hempty, rfl⟩; exact ⟨rfl, hempty⟩
    · rintro ⟨rfl, hempty⟩; exact ⟨hempty, rfl⟩

/-- RES is dispatched to its own byte alone. -/
theorem dispatchOf_eq_res_iff {cfg : Config} {op : Byte} {mode : Mode} :
    dispatchOf cfg op = some (.res, mode) ↔ mode = .implied ∧ resByte cfg = some op := by
  rw [dispatchOf_eq_some_iff]
  constructor
  · rintro ⟨r, hrow, hmn, rfl⟩
    obtain ⟨hres, rfl⟩ | ⟨-, -, hne⟩ := rowOf_eq_some_iff.1 hrow
    · exact ⟨rfl, hres⟩
    · exact absurd hmn hne
  · rintro ⟨rfl, hres⟩
    exact ⟨_, rowOf_eq_some_iff.2 (.inl ⟨hres, rfl⟩), rfl, rfl⟩

/-- The byte the encoder takes for a pair is one that DISPATCH gives that pair. -/
theorem dispatchOf_of_opcodeOf {cfg : Config} {mn : Mnemonic} {mode : Mode} {op : Byte}
    (h : opcodeOf cfg mn mode = some op) : dispatchOf cfg op = some (mn, mode) := by
  unfold opcodeOf at h
  split at h
  next => exact dispatchOf_eq_res_iff.2 ⟨rfl, h⟩
  next =>
    obtain ⟨r, hfind, rfl⟩ := Option.map_eq_some_iff.1 h
    have hr := List.find?_some hfind
    simp only [Bool.and_eq_true, beq_iff_eq] at hr
    obtain ⟨-, -, hop⟩ := hr
    exact hop

/-- Settles O1: the encoder writes an opcode byte of the pair and the operand bytes, which the decoder accepts. -/
theorem decodeOfEncodeIsTheInstruction : Obligations.DecodeOfEncodeIsTheInstruction := by
  intro cfg i rest hwf
  obtain ⟨op, hop⟩ := Option.isSome_iff_exists.1 hwf
  refine ⟨op :: i.operandBytes, by simp [encode, hop], ?_, ?_⟩
  · rw [List.length_cons, operandBytes_length, Nat.add_comm]
  · exact decode_eq_instr_iff.2 ⟨op, rfl, dispatchOf_of_opcodeOf hop⟩

/-! ## The default map -/

/-- In a table with one record a byte, a byte's record is the one listed. -/
theorem lookupRow_eq_some_iff {rows : List OpRow} (h : OpRow.distinct rows = true) {op : Byte} {r : OpRow} :
    lookupRow rows op = some r ↔ r ∈ rows ∧ r.opcode = op := by
  induction rows with
  | nil => simp [lookupRow]
  | cons q rest ih =>
    simp only [OpRow.distinct, Bool.and_eq_true, List.all_eq_true, bne_iff_ne] at h
    obtain ⟨hq, hrest⟩ := h
    by_cases hop : q.opcode = op
    · rw [lookupRow, if_pos hop, Option.some.injEq, List.mem_cons]
      constructor
      · rintro rfl; exact ⟨.inl rfl, hop⟩
      · rintro ⟨rfl | hr, hrop⟩
        · rfl
        · exact absurd (hrop.trans hop.symm) (hq r hr)
    · rw [lookupRow, if_neg hop, ih hrest, List.mem_cons]
      constructor
      · rintro ⟨hr, hrop⟩; exact ⟨.inr hr, hrop⟩
      · rintro ⟨rfl | hr, hrop⟩
        · exact absurd hrop hop
        · exact ⟨hr, hrop⟩

theorem lookupRow_default_iff {op : Byte} {r : OpRow} :
    lookupRow defaultDispatch op = some r ↔ r ∈ defaultDispatch ∧ r.opcode = op :=
  have ⟨_, _, _, hwf⟩ := resetStateMeetsTheInvariant
  lookupRow_eq_some_iff hwf

/-- The default map binds no byte to RES. -/
theorem rowOf_default (op : Byte) : rowOf Config.default op = lookupRow defaultDispatch op := by
  have hnotRes : ∀ r ∈ defaultDispatch, r.mnemonic ≠ .res := by decide +kernel
  ext r
  rw [rowOf_eq_some_iff]
  constructor
  · rintro (⟨hres, -⟩ | ⟨-, hrow, -⟩)
    · cases hres
    · exact hrow
  · intro hrow
    exact .inr ⟨nofun, hrow, hnotRes r (lookupRow_default_iff.1 hrow).1⟩

/-- Settles O5: RES's byte is RES_OPCODE where the default table has no record. -/
theorem onlyResOpcodeReachesRes : Obligations.OnlyResOpcodeReachesRes := by
  intro cfg op mode
  rw [dispatchOf_eq_res_iff, resByte_eq_some_iff, dispatchOf_eq_none_iff, rowOf_default]

/-- The model's table and the one written out from R194 list the same bytes and pairs. -/
theorem opTable_pairs :
    opTable.map (fun e => (e.1, e.2.1, e.2.2.1)) = defaultDispatch.map (fun r => (r.opcode, r.mnemonic, r.mode)) := by
  decide +kernel

theorem dispatchOf_default_iff {op : Byte} {mn : Mnemonic} {mode : Mode} :
    dispatchOf Config.default op = some (mn, mode) ↔ ∃ c, (op, mn, mode, c) ∈ opTable := by
  calc dispatchOf Config.default op = some (mn, mode)
      ↔ ∃ r ∈ defaultDispatch, (r.opcode, r.mnemonic, r.mode) = (op, mn, mode) := by
        simp only [dispatchOf_eq_some_iff, rowOf_default, lookupRow_default_iff, Prod.mk.injEq, and_assoc]
    _ ↔ (op, mn, mode) ∈ opTable.map (fun e => (e.1, e.2.1, e.2.2.1)) := by
        rw [opTable_pairs, List.mem_map]
    _ ↔ ∃ c, (op, mn, mode, c) ∈ opTable := by simp

/-- Every pair that a rule defines has a byte in the default map, but RES. -/
theorem opcodeOf_default (mn : Mnemonic) :
    ∀ mode ∈ mn.modes, (opcodeOf Config.default mn mode).isSome = decide (mn ≠ .res) := by
  cases mn <;> decide +kernel

theorem mode_mem_modes (i : Instr) : i.mode ∈ i.mnemonic.modes := by
  cases i <;> exact of_decide_eq_true rfl

/-- The bytes listed as empty are the ones no row of the table has; compared as numbers, which is cheaper to check. -/
theorem mem_emptyBytes_iff (op : Byte) : op ∈ emptyBytes ↔ op ∉ opTable.map (·.1) := by
  have hnat : ∀ n < 256, n ∈ emptyBytes.map BitVec.toNat ↔ n ∉ (opTable.map (·.1)).map BitVec.toNat := by
    decide +kernel
  simpa only [List.mem_map_of_injective BitVec.toNat_injective] using hnat op.toNat op.isLt

/-- Settles O4: the default map is the table of R194, which has every pair but RES's and no byte of the empty ones. -/
theorem defaultMapHasEveryRowAndNoOther : Obligations.DefaultMapHasEveryRowAndNoOther := by
  refine ⟨fun _ _ _ => dispatchOf_default_iff, fun i => opcodeOf_default i.mnemonic i.mode (mode_mem_modes i),
    fun op => ?_⟩
  rw [mem_emptyBytes_iff, Option.eq_none_iff_forall_ne_some]
  simp [dispatchOf_default_iff]

/-! ## The step of a decoded or an unmapped byte -/

/-- Settles O6: the decoder and the step look the same byte up and take the same operand bytes. -/
theorem stepRunsTheDecodedInstruction : Obligations.StepRunsTheDecodedInstruction := by
  intro s i rest hmark hready hdecode
  obtain ⟨op, hbytes, hop⟩ := decode_eq_instr_iff.1 hdecode
  obtain ⟨rfl, htail⟩ := List.cons.inj hbytes
  obtain ⟨r, hrow, hmn, hmode⟩ := dispatchOf_eq_some_iff.1 hop
  have hnext : s.pc + 1 + 1 = s.pc + 2 := BitVec.add_assoc ..
  have hinstr : s.takeByte.instrAtPc r = i := by
    refine instr_eq_iff.2 ⟨hmn, hmode, ?_⟩
    simp only [State.takeByte_mem, State.takeByte_pc, hnext, htail]
    rw [← operandBytes_length, List.take_left]
  rw [step_of_mapped hmark hready hrow, hinstr, State.takeByte_eq]

/-- Settles O7: an empty entry is the step's unmapped branch. -/
theorem unmappedOpcodeIsSkippedAndLogged : Obligations.UnmappedOpcodeIsSkippedAndLogged :=
  fun _ hmark hready hop => step_of_unmapped hmark hready (dispatchOf_eq_none_iff.1 hop)

/-! ## The resolver's addresses and cycles in numbers -/

theorem zext16_eq (b : Byte) : zext16 b = BitVec.ofNat 16 b.toNat :=
  (BitVec.ofNat_toNat 16 b).symm

/-- An index is added modulo 65536. -/
theorem add_zext16 (a : Word) (b : Byte) : a + zext16 b = BitVec.ofNat 16 ((a.toNat + b.toNat) % 65536) := by
  apply BitVec.eq_of_toNat_eq
  rw [zext16_eq, BitVec.toNat_add]
  simp

theorem toNat_add_zext16 (a : Word) (b : Byte) : (a + zext16 b).toNat = (a.toNat + b.toNat) % 65536 := by
  simp [add_zext16]

/-- In page 0 an index is added modulo 256. -/
theorem zext16_add (b x : Byte) : zext16 (b + x) = BitVec.ofNat 16 ((b.toNat + x.toNat) % 256) := by
  rw [zext16_eq, BitVec.toNat_add]

theorem hi_eq_hi_iff (v w : Word) : hi v = hi w ↔ v.toNat / 256 = w.toNat / 256 := by
  have hv := v.isLt
  have hw := w.isLt
  rw [hi, hi, ← BitVec.toNat_inj, BitVec.toNat_ofNat, BitVec.toNat_ofNat]
  omega

/-- Class R does without the extra cycle when the page stays the same. -/
theorem indexCycle_eq (base : Word) (index : Byte) (cls : Access) :
    indexCycle base index cls =
      if cls = .read ∧ base.toNat / 256 = (base.toNat + index.toNat) % 65536 / 256 then 0 else 1 := by
  cases cls with
  | read =>
    have hpage := hi_eq_hi_iff base (base + zext16 index)
    rw [toNat_add_zext16] at hpage
    simp [indexCycle, crossed, hpage]
  | write | modify => simp [indexCycle]

/-- Settles O22: the sum is taken in a byte before it is extended; only LDX and STX list
`zeroPageY` among their modes. -/
theorem zeroPageModesStayInPageZero : Obligations.ZeroPageModesStayInPageZero := by
  refine ⟨fun s b cls => ?_, fun i hi => ?_⟩
  · simp only [State.ea_eq, MemOperand.addr, MemOperand.bytes, MemOperand.cycles, zext16_add]
    exact ⟨congrArg (·, _) (zext16_eq b), rfl, rfl⟩
  · have hmem := mode_mem_modes i
    rw [hi] at hmem
    revert hmem
    cases i.mnemonic <;> decide

/-- Settles O23: the resolver's one equation, its address and its page-crossing cycle written as numbers. -/
theorem absoluteModesIndexTheOperandWord : Obligations.AbsoluteModesIndexTheOperandWord := by
  refine ⟨fun s a cls => ?_, fun i hi => ?_⟩
  · simp only [State.ea_eq, MemOperand.addr, MemOperand.bytes, MemOperand.cycles, add_zext16, indexCycle_eq,
      Nat.add_assoc]
    exact ⟨rfl, rfl, rfl⟩
  · have hmem := mode_mem_modes i
    rw [hi] at hmem
    revert hmem
    cases i.mnemonic <;> decide

/-- Settles O24: both cells of a pointer are in page 0, and the modes index what they hold. -/
theorem indirectModesReadPageZeroPointers : Obligations.IndirectModesReadPageZeroPointers := by
  intro s b cls ptr
  have hptr : ∀ p, (s.mem.zpWord p).toNat = ptr p := fun p => by
    rw [Memory.zpWord, toNat_word, zext16_eq p, zext16_add]
    rfl
  have hword : s.mem.zpWord (b + s.x) = BitVec.ofNat 16 (ptr (b + s.x)) := by
    rw [← hptr, BitVec.ofNat_toNat, BitVec.setWidth_eq]
  simp only [State.ea_eq, MemOperand.addr, MemOperand.bytes, MemOperand.cycles, add_zext16, indexCycle_eq, hptr,
    Nat.add_assoc]
  exact ⟨congrArg (·, _) hword, rfl⟩

/-! ## What writes memory -/

theorem readOperand_mem (s : State) (o : Operand) : (s.readOperand o).2.mem = s.mem := by
  rw [State.readOperand_eq]

theorem branch_mem (s : State) (cond : Bool) (off : Byte) : (s.branch cond off).mem = s.mem := by
  rw [State.branch_eq]

theorem opJmp_mem (a : Word) (s : State) : (opJmp a s).mem = s.mem := by
  rw [opJmp, State.takeWord_eq, State.setPc_mem]

theorem opJmpIndirect_mem (a : Word) (s : State) : (opJmpIndirect a s).mem = s.mem := by
  rw [opJmpIndirect, State.indirectTarget_eq, State.setPc_mem]

theorem opRts_mem (s : State) : (opRts s).mem = s.mem := by
  rw [opRts, State.pullWord_eq, State.tick_mem, State.setPc_mem, State.tick_mem]

theorem opRti_mem (s : State) : (opRti s).mem = s.mem := by
  rw [opRti, State.returnFromBreak_eq, State.tick_mem]

theorem opNop_mem (s : State) : (opNop s).mem = s.mem := by
  unfold opNop
  split <;> rfl

theorem resetSequence_mem (s : State) : s.resetSequence.mem = s.mem := by
  rw [State.resetSequence_eq]

/-- The instructions that may write memory: the pushes, and class W and RMW with a memory operand. -/
def mayWriteMemory (i : Instr) : Prop :=
  i.mnemonic ∈ [.pha, .php, .jsr, .brk] ∨ i.mnemonic ∈ classWorRmw ∧ (memOperand? i).isSome = true

/-- Every instruction may write memory or leaves it as it was. -/
theorem exec_mem {i : Instr} {s t : State} (h : exec i s = .next t) : mayWriteMemory i ∨ t.mem = s.mem := by
  cases i with
  | pha | php | jsr | brk => exact .inl (.inl (of_decide_eq_true rfl))
  | staZp | staZpX | staAbs | staAbsX | staAbsY | staIndX | staIndY
  | stxZp | stxZpY | stxAbs | styZp | styZpX | styAbs
  | incZp | incZpX | incAbs | incAbsX | decZp | decZpX | decAbs | decAbsX
  | aslZp | aslZpX | aslAbs | aslAbsX | lsrZp | lsrZpX | lsrAbs | lsrAbsX
  | rolZp | rolZpX | rolAbs | rolAbsX | rorZp | rorZpX | rorAbs | rorAbsX =>
    exact .inl (.inr ⟨of_decide_eq_true rfl, rfl⟩)
  | ldaImm | ldaZp | ldaZpX | ldaAbs | ldaAbsX | ldaAbsY | ldaIndX | ldaIndY
  | ldxImm | ldxZp | ldxZpY | ldxAbs | ldxAbsY
  | ldyImm | ldyZp | ldyZpX | ldyAbs | ldyAbsX
  | andImm | andZp | andZpX | andAbs | andAbsX | andAbsY | andIndX | andIndY
  | eorImm | eorZp | eorZpX | eorAbs | eorAbsX | eorAbsY | eorIndX | eorIndY
  | oraImm | oraZp | oraZpX | oraAbs | oraAbsX | oraAbsY | oraIndX | oraIndY
  | bitZp | bitAbs
  | cmpImm | cmpZp | cmpZpX | cmpAbs | cmpAbsX | cmpAbsY | cmpIndX | cmpIndY
  | cpxImm | cpxZp | cpxAbs | cpyImm | cpyZp | cpyAbs => cases h; exact .inr (readOperand_mem s _)
  | adcImm | adcZp | adcZpX | adcAbs | adcAbsX | adcAbsY | adcIndX | adcIndY =>
    obtain ⟨-, rfl⟩ := opAdc_next h
    exact .inr (readOperand_mem s _)
  | sbcImm | sbcZp | sbcZpX | sbcAbs | sbcAbsX | sbcAbsY | sbcIndX | sbcIndY =>
    obtain ⟨-, rfl⟩ := opSbc_next h
    exact .inr (readOperand_mem s _)
  | bcc | bcs | beq | bmi | bne | bpl | bvc | bvs => cases h; exact .inr (branch_mem s _ _)
  | jmpAbs => cases h; exact .inr (opJmp_mem _ s)
  | jmpInd => cases h; exact .inr (opJmpIndirect_mem _ s)
  | rts => cases h; exact .inr (opRts_mem s)
  | rti => cases h; exact .inr (opRti_mem s)
  | res => cases h; exact .inr (resetSequence_mem s)
  | nop => cases h; exact .inr (opNop_mem s)
  | tax | tay | txa | tya | tsx | txs | inx | iny | dex | dey
  | clc | cld | cli | clv | sec | sed | sei
  | aslAcc | lsrAcc | rolAcc | rorAcc | pla | plp => cases h; exact .inr rfl

/-- Settles O18: where a byte changed, memory did, so the instruction is one that may write it. -/
theorem onlyStoresAndPushesWriteMemory : Obligations.OnlyStoresAndPushesWriteMemory := by
  intro i s t a h hne
  exact (exec_mem h).resolve_right fun hmem => hne (by rw [hmem])

end Sys2Proof.Machine

namespace Sys2Proof.Machine

open Sys2Proof.Says

/-! ## Loads, stores and transfers -/

theorem setZN_eq_znOf (v : Byte) (f : Flags) : setZN v f = znOf v f := rfl

/-- The statements' operand value is the resolver's. -/
theorem valueOf_eq_value (o : Operand) (s : State) : valueOf o s = o.value s := by
  cases o with
  | imm v => rfl
  | mem m => rw [valueOf, State.ea_eq, Operand.value]

/-- An instruction that goes on from its class R operand's value and the state after the operand is read completes, and
there PC is past the operand bytes and only the clock has changed besides. -/
theorem exec_of_readOperand {i : Instr} {s : State} {f : Byte → State → State}
    (h : ∃ o, operand? i = some o ∧ o.bytes = i.mode.operandCount ∧
      exec i s = .next (f (s.readOperand o).1 (s.readOperand o).2)) :
    ∃ o k, operand? i = some o ∧
      exec i s = .next (f (valueOf o s) { s with pc := pcAfter i s, clock := s.clock + k }) := by
  obtain ⟨o, ho, hbytes, hx⟩ := h
  refine ⟨o, o.cycles s, ho, ?_⟩
  rw [hx, State.readOperand_eq, hbytes, valueOf_eq_value, pcAfter]

/-- An instruction that stores one byte completes: that byte alone changes in memory, PC passes the operand bytes. -/
theorem exec_of_store {i : Instr} {s : State} {v : Byte}
    (h : ∃ m, memOperand? i = some m ∧ m.bytes = i.mode.operandCount ∧ exec i s = .next (s.store m v)) :
    ∃ m k mem, memOperand? i = some m ∧
      exec i s = .next { s with mem := mem, pc := pcAfter i s, clock := s.clock + k } ∧
      ∀ a, mem.read a = if a = (s.ea m .write).1 then v else s.mem.read a := by
  obtain ⟨m, hm, hbytes, hx⟩ := h
  refine ⟨m, m.cycles .write s + 1, s.mem.write (m.addr s) v, hm, ?_, fun a => ?_⟩
  · rw [hx, State.store_eq, hbytes, pcAfter]
  · rw [Memory.read_write, State.ea_eq]

/-- Settles O31: a load reads its operand and then writes its register and the flags. -/
theorem loadsTakeTheOperand : Obligations.LoadsTakeTheOperand := by
  intro i s
  simp only [← setZN_eq_znOf]
  refine ⟨fun hi => ?_, fun hi => ?_, fun hi => ?_⟩
  · exact exec_of_readOperand (f := fun v t => { t with a := v, flags := setZN v t.flags }) (exec_lda hi s)
  · exact exec_of_readOperand (f := fun v t => { t with x := v, flags := setZN v t.flags }) (exec_ldx hi s)
  · exact exec_of_readOperand (f := fun v t => { t with y := v, flags := setZN v t.flags }) (exec_ldy hi s)

/-- Settles O33: each of the three mnemonics stores its own register. -/
theorem storesWriteTheRegister : Obligations.StoresWriteTheRegister := by
  rintro i s v (⟨hi, rfl⟩ | ⟨hi, rfl⟩ | ⟨hi, rfl⟩)
  · exact exec_of_store (exec_sta hi s)
  · exact exec_of_store (exec_stx hi s)
  · exact exec_of_store (exec_sty hi s)

/-- Settles O32: a transfer is its tick, its register write and, but for TXS, `SetZN`. -/
theorem transfersMoveOneRegister : Obligations.TransfersMoveOneRegister := by
  intro s
  simp only [← setZN_eq_znOf]
  exact ⟨rfl, rfl, rfl, rfl, rfl, rfl⟩

/-! ## Sample encodings -/

/-- A row of the opcode table and the operand bytes spell the instruction (R75, R80). -/
theorem decode_of_opTable {op : Byte} {c : Nat} (i : Instr) (h : (op, i.mnemonic, i.mode, c) ∈ opTable) :
    decode Config.default (op :: i.operandBytes) = .instr i [] :=
  decode_eq_instr_iff.2 ⟨op, by rw [List.append_nil], dispatchOf_default_iff.2 ⟨c, h⟩⟩

theorem decode_of_dispatchOf_eq_none {cfg : Config} {op : Byte} (rest : List Byte) (h : dispatchOf cfg op = none) :
    decode cfg (op :: rest) = .rejected (.unmapped op) := by
  rw [decode, dispatchOf_eq_none_iff.1 h]

/-- Settles O3: the eight instructions are rows of the opcode table, and 0x02 is one of its empty bytes. -/
theorem sampleEncodingsDecode : Obligations.SampleEncodingsDecode := by
  obtain ⟨-, -, hempty⟩ := defaultMapHasEveryRowAndNoOther
  refine ⟨?_, ?_, ?_, ?_, ?_, ?_, ?_, ?_, ?_⟩
  · exact decode_of_opTable (c := 2) (.ldaImm 0x10) (by decide +kernel)
  · exact decode_of_opTable (c := 5) (.staAbsX 0x0400) (by decide +kernel)
  · exact decode_of_opTable (c := 5) (.ldaIndY 0x20) (by decide +kernel)
  · exact decode_of_opTable (c := 5) (.jmpInd 0x02FF) (by decide +kernel)
  · exact decode_of_opTable (c := 2) .rorAcc (by decide +kernel)
  · exact decode_of_opTable (c := 2) (.bne 0xF8) (by decide +kernel)
  · exact decode_of_opTable (c := 6) (.jsr 0x0300) (by decide +kernel)
  · exact decode_of_opTable (c := 7) .brk (by decide +kernel)
  · exact decode_of_dispatchOf_eq_none [] ((hempty 0x02).2 (by decide +kernel))

end Sys2Proof.Machine

namespace Sys2Proof.Machine

open Sys2Proof.Says

/-! PROOFS. The stack instructions: PHA, PHP, PLA, PLP (42_stack.md R118-R121). -/

/-- An instruction that is one tick and the push of `v` completes: only the cell SP points at changes in memory. -/
theorem exec_of_push {i : Instr} {s : State} {v : Byte} (h : exec i s = .next ((s.tick 1).push v)) :
    ∃ mem, exec i s = .next { s with mem := mem, sp := s.sp - 1, clock := s.clock + 2 } ∧
      ∀ a, mem.read a = if a = stackAddr s.sp then v else s.mem.read a := by
  refine ⟨s.mem.write (stackAddr s.sp) v, ?_, fun a => Memory.read_write s.mem (stackAddr s.sp) a v⟩
  rw [h, State.push_eq]
  rfl

/-- An instruction that goes on from a pull after two ticks completes from the cell above SP and the state with SP raised;
the pull itself writes no memory. -/
theorem exec_of_pull {i : Instr} {s : State} {f : Byte → State → State}
    (h : exec i s = .next (f (s.tick 2).pull.1 (s.tick 2).pull.2)) :
    exec i s =
      .next (f (s.mem.read (stackAddr (s.sp + 1))) { s with sp := s.sp + 1, clock := s.clock + 3 }) := by
  rw [h, State.pull_eq]
  rfl

/-- Settles O35: PHA and PHP are a tick and a push, of A and of the packed flags. -/
theorem pushesWriteTheFreeCell : Obligations.PushesWriteTheFreeCell := by
  intro s
  have hpha : exec .pha s = .next ((s.tick 1).push s.a) := rfl
  have hphp : exec .php s = .next ((s.tick 1).push (pack s.flags)) := rfl
  exact ⟨exec_of_push hpha, exec_of_push hphp⟩

/-- Settles O36: PLA and PLP are two ticks and a pull; the pulled byte then goes to A with `SetZN`, or through `Unpack`,
which keeps B. -/
theorem pullsReadTheCellAboveSp : Obligations.PullsReadTheCellAboveSp := by
  intro s p
  rw [← setZN_eq_znOf]
  constructor
  · exact exec_of_pull (i := .pla) (f := fun v t => { t with a := v, flags := setZN v t.flags }) rfl
  · exact exec_of_pull (i := .plp) (f := fun v t => { t with flags := unpack v t.flags }) rfl

end Sys2Proof.Machine

namespace Sys2Proof.Machine

open Sys2Proof.Says

/-! PROOFS. The logical instructions: AND, EOR, ORA, BIT (43_logical.md R122-R125). -/

/-- What AND, EOR and ORA share after the operand is read: A takes `g A v`, and `SetZN` follows it. -/
def State.combineA (g : Byte → Byte → Byte) (v : Byte) (s : State) : State :=
  { s with a := g s.a v, flags := setZN (g s.a v) s.flags }

theorem opAnd_eq_combineA (o : Operand) (s : State) :
    opAnd o s = (s.readOperand o).2.combineA (· &&& ·) (s.readOperand o).1 := rfl

theorem opEor_eq_combineA (o : Operand) (s : State) :
    opEor o s = (s.readOperand o).2.combineA (· ^^^ ·) (s.readOperand o).1 := rfl

theorem opOra_eq_combineA (o : Operand) (s : State) :
    opOra o s = (s.readOperand o).2.combineA (· ||| ·) (s.readOperand o).1 := rfl

/-- Settles O37: each reads its operand and then combines it with A by its own bitwise function. -/
theorem logicalOpsCombineWithA : Obligations.LogicalOpsCombineWithA := by
  intro i s
  simp only [← setZN_eq_znOf]
  refine ⟨fun hi => ?_, fun hi => ?_, fun hi => ?_⟩
  · exact exec_of_readOperand (f := State.combineA (· &&& ·)) (by simpa only [opAnd_eq_combineA] using exec_and hi s)
  · exact exec_of_readOperand (f := State.combineA (· ^^^ ·)) (by simpa only [opEor_eq_combineA] using exec_eor hi s)
  · exact exec_of_readOperand (f := State.combineA (· ||| ·)) (by simpa only [opOra_eq_combineA] using exec_ora hi s)

/-- What BIT does after the operand is read: Z from A AND `v`, V and N from bits 6 and 7 of `v` itself. -/
def State.testA (v : Byte) (s : State) : State :=
  { s with flags := { s.flags with z := decide (s.a &&& v = 0), v := v.getLsbD 6, n := v.getLsbD 7 } }

theorem opBit_eq_testA (o : Operand) (s : State) :
    opBit o s = (s.readOperand o).2.testA (s.readOperand o).1 := rfl

/-- Settles O38: BIT reads its operand and then tests it against A, which it does not write. -/
theorem bitTestsTheOperand : Obligations.BitTestsTheOperand := by
  intro i s hi
  exact exec_of_readOperand (f := State.testA) (by simpa only [opBit_eq_testA] using exec_bit hi s)

end Sys2Proof.Machine

namespace Sys2Proof.Machine

open Sys2Proof.Says

/-! PROOFS. Arithmetic and compare: the adder, the comparator, and ADC, SBC, CMP, CPX, CPY (44_arithmetic.md R126-R132). -/

/-! ## Bytes as signed numbers, and the one's complement -/

/-- Bit 7 is set in the upper half of the byte range. -/
theorem getLsbD_seven (v : Byte) : v.getLsbD 7 = decide (128 ≤ v.toNat) := by
  rw [← BitVec.msb_eq_getLsbD_last v, BitVec.msb_eq_decide]

/-- Bit 7 is the sign: it takes 256 from a byte's value. -/
theorem toInt_eq_of_bit7 (v : Byte) : v.toInt = if v.getLsbD 7 = true then (v.toNat : Int) - 256 else v.toNat := by
  rw [← BitVec.msb_eq_getLsbD_last v, BitVec.toInt_eq_msb_cond]
  rfl

theorem toNat_complement (v : Byte) : (~~~v).toNat = 255 - v.toNat := by
  rw [BitVec.toNat_not]

theorem getLsbD_seven_complement (v : Byte) : (~~~v).getLsbD 7 = !v.getLsbD 7 := BitVec.getLsbD_not

theorem toInt_complement (v : Byte) : (~~~v).toInt = -1 - v.toInt := by
  have hv := v.isLt
  simp only [toInt_eq_of_bit7, getLsbD_seven, toNat_complement, decide_eq_true_eq]
  omega

/-- SBC's exclusive or with 0xFF is the one's complement (R128). -/
theorem xor_ff_eq_complement (v : Byte) : v ^^^ 0xFF = ~~~v := BitVec.xor_allOnes

/-! ## The adder -/

theorem add8_toNat (a b : Byte) (cin : Bool) :
    (add8 a b cin).r.toNat = (a.toNat + b.toNat + cin.toNat) % 256 := BitVec.toNat_ofNat ..

theorem add8_cout_iff (a b : Byte) (cin : Bool) :
    (add8 a b cin).cout = true ↔ 255 < a.toNat + b.toNat + cin.toNat := decide_eq_true_iff

theorem add8_ovf_iff (a b : Byte) (cin : Bool) :
    (add8 a b cin).ovf = true ↔ a.getLsbD 7 = b.getLsbD 7 ∧ (add8 a b cin).r.getLsbD 7 ≠ a.getLsbD 7 := by
  simp only [add8, Bool.and_eq_true, beq_iff_eq, bne_iff_ne]

/-- The formula of 90_conflicts.md C1 is signed overflow: operands of opposite signs have a sum in range, and otherwise
the sum leaves the range exactly when its low byte has the other sign. -/
theorem add8_ovf_iff_signed (a b : Byte) (cin : Bool) :
    (add8 a b cin).ovf = true ↔
      (a.toInt + b.toInt + cin.toNat < -128 ∨ 127 < a.toInt + b.toInt + cin.toNat) := by
  have ha := a.isLt
  have hb := b.isLt
  have hc := cin.toNat_le
  rw [add8_ovf_iff]
  simp only [toInt_eq_of_bit7, getLsbD_seven, add8_toNat, ne_eq, decide_eq_decide, decide_eq_true_eq]
  by_cases hsign : 128 ≤ a.toNat ↔ 128 ≤ b.toNat
  · omega
  · omega

/-- Settles O28. -/
theorem adderIsExact : Obligations.AdderIsExact := fun a b cin =>
  ⟨add8_toNat a b cin, add8_cout_iff a b cin, add8_ovf_iff a b cin, add8_ovf_iff_signed a b cin⟩

/-- Settles O29: the complement is `255 - v` as a byte and `-1 - v` as a signed number, so the exact sum is the difference
plus 256, and the signed sum is the signed difference. -/
theorem complementAddIsTheDifference : Obligations.ComplementAddIsTheDifference := by
  intro a v c
  have hv := v.isLt
  have hc := c.toNat_le
  simp only [xor_ff_eq_complement]
  refine ⟨?_, ?_, ?_, ?_⟩
  · rw [add8_toNat, toNat_complement]
    omega
  · rw [add8_cout_iff, toNat_complement]
    omega
  · rw [add8_ovf_iff, getLsbD_seven_complement, Bool.eq_not]
  · rw [add8_ovf_iff_signed, toInt_complement]
    omega

/-! ## The comparator -/

theorem compare8_eq_compareFlags (reg v : Byte) (f : Flags) : compare8 reg v f = compareFlags reg v f := rfl

/-- Settles O30: N is bit 7 of the difference modulo 256. -/
theorem compareWritesThreeFlags : Obligations.CompareWritesThreeFlags := by
  intro reg v f
  have hn : (reg - v).getLsbD 7 = decide (128 ≤ (256 + reg.toNat - v.toNat) % 256) := by
    have hv := v.isLt
    rw [getLsbD_seven, BitVec.toNat_sub, Nat.sub_add_comm hv.le]
  rw [← hn]
  rfl

/-! ## ADC and SBC -/

theorem decimalRefused_eq_false {s : State} (h : s.BinaryOk) : decimalRefused s = false := by
  obtain hd | hp := h
  · simp [decimalRefused, hd]
  · simp [decimalRefused, hp]

/-- What ADC and SBC share after the operand is read: A takes the sum's low byte, and the flags are the sum's. -/
theorem State.addToA_eq (s : State) (v : Byte) :
    s.addToA v =
      { s with
        a := BitVec.ofNat 8 (s.a.toNat + v.toNat + s.flags.c.toNat), flags := sumFlags s.a v s.flags } := rfl

theorem opAdc_of_binaryOk {s : State} (h : s.BinaryOk) (o : Operand) :
    opAdc o s = .next ((s.readOperand o).2.addToA (s.readOperand o).1) := by
  rw [opAdc, decimalRefused_eq_false h]
  rfl

theorem opSbc_of_binaryOk {s : State} (h : s.BinaryOk) (o : Operand) :
    opSbc o s = .next ((s.readOperand o).2.addToA (~~~(s.readOperand o).1)) := by
  rw [opSbc, decimalRefused_eq_false h, ← xor_ff_eq_complement]
  rfl

/-- Settles O39: each reads its operand and then adds it, or its complement, to A. -/
theorem adcAndSbcAddInBinary : Obligations.AdcAndSbcAddInBinary := by
  intro i s hbin
  refine ⟨fun hi => ?_, fun hi => ?_⟩
  · have hx := exec_adc hi s
    simp only [opAdc_of_binaryOk hbin] at hx
    simpa only [State.addToA_eq] using exec_of_readOperand (f := fun v t => t.addToA v) hx
  · have hx := exec_sbc hi s
    simp only [opSbc_of_binaryOk hbin] at hx
    simpa only [State.addToA_eq, toNat_complement] using exec_of_readOperand (f := fun v t => t.addToA (~~~v)) hx

/-- Settles O40: the refusal comes before the operand is read. -/
theorem adcAndSbcAreRefusedInDecimalMode : Obligations.AdcAndSbcAreRefusedInDecimalMode := by
  intro i s hd hp hi
  have hrefused : decimalRefused s = true := (decimalRefused_iff s).2 ⟨hd, hp⟩
  obtain hi | hi := hi
  · obtain ⟨o, -, -, hx⟩ := exec_adc hi s
    rw [hx, opAdc, hrefused, if_pos rfl]
  · obtain ⟨o, -, -, hx⟩ := exec_sbc hi s
    rw [hx, opSbc, hrefused, if_pos rfl]

/-! ## CMP, CPX and CPY -/

/-- Settles O41: each of the three mnemonics compares its own register with the operand. -/
theorem comparesWriteOnlyFlags : Obligations.ComparesWriteOnlyFlags := by
  intro i s reg hi
  simp only [← compare8_eq_compareFlags]
  obtain ⟨hi, rfl⟩ | ⟨hi, rfl⟩ | ⟨hi, rfl⟩ := hi
  · exact exec_of_readOperand (f := fun v t => t.setFlags (compare8 t.a v t.flags)) (exec_cmp hi s)
  · exact exec_of_readOperand (f := fun v t => t.setFlags (compare8 t.x v t.flags)) (exec_cpx hi s)
  · exact exec_of_readOperand (f := fun v t => t.setFlags (compare8 t.y v t.flags)) (exec_cpy hi s)

end Sys2Proof.Machine

namespace Sys2Proof.Machine

open Sys2Proof.Says

/-! PROOFS. Increment and decrement: INC, INX, INY, DEC, DEX, DEY (45_increment_decrement.md R133-R138). -/

/-- An instruction that goes on from the new value of its modified cell and the state after the write completes, and there
that cell alone has changed in memory, PC is past the operand bytes and only the clock has changed besides. -/
theorem exec_of_modify {i : Instr} {s : State} {g : Byte → Byte} {f : Byte → State → State}
    (h : ∃ m, memOperand? i = some m ∧ m.bytes = i.mode.operandCount ∧
      exec i s = .next (f (s.modify m g).2.1 (s.modify m g).2.2)) :
    ∃ m k mem, memOperand? i = some m ∧
      let a := (s.ea m .modify).1
      let r := g (s.mem.read a)
      exec i s = .next (f r { s with mem := mem, pc := pcAfter i s, clock := s.clock + k }) ∧
      ∀ b, mem.read b = if b = a then r else s.mem.read b := by
  obtain ⟨m, hm, hbytes, hx⟩ := h
  simp only [State.ea_eq]
  refine ⟨m, m.cycles .modify s + 3, s.mem.write (m.addr s) (g (s.mem.read (m.addr s))), hm, ?_, fun b => ?_⟩
  · rw [hx, State.modify_eq, hbytes, pcAfter]
  · rw [Memory.read_write]

/-- Settles O42: each changes its memory operand by one, and `SetZN` follows with the new value. -/
theorem incAndDecChangeOneCell : Obligations.IncAndDecChangeOneCell := by
  intro i s hi
  simp only [← setZN_eq_znOf]
  obtain hi | hi := hi
  · simp only [hi, if_true]
    exact exec_of_modify (f := fun v t => t.setFlags (setZN v t.flags)) (exec_inc hi s)
  · simp only [hi, reduceCtorEq, if_false]
    exact exec_of_modify (f := fun v t => t.setFlags (setZN v t.flags)) (exec_dec hi s)

/-- Settles O43: each is its tick, its register write and `SetZN`. -/
theorem indexRegistersCountByOne : Obligations.IndexRegistersCountByOne := by
  intro s
  simp only [← setZN_eq_znOf]
  exact ⟨rfl, rfl, rfl, rfl⟩

end Sys2Proof.Machine

namespace Sys2Proof.Machine

open Sys2Proof.Says

/-! PROOFS. Shift and rotate: ASL, LSR, ROL, ROR (46_shift_rotate.md R139-R143). -/

/-- A shift or rotate of A, all of it: A, C, Z, N and the tick. -/
theorem opShift_acc_eq (mn : Mnemonic) (s : State) :
    opShift mn .acc s =
      let q := shiftOf mn s.a s.flags.c
      { s with
        a := BitVec.ofNat 8 q.1
        flags := znOf (BitVec.ofNat 8 q.1) { s.flags with c := q.2 }
        clock := s.clock + 1 } := by
  rw [opShift, State.applyShift_acc, setZN_eq_znOf]
  rfl

/-- A shift or rotate of a memory cell, all of it: the cell, C, Z, N, PC and the clock. -/
theorem opShift_mem_eq (mn : Mnemonic) (m : MemOperand) (s : State) :
    opShift mn (.mem m) s =
      let q := shiftOf mn (s.mem.read (m.addr s)) s.flags.c
      { s with
        mem := s.mem.write (m.addr s) (BitVec.ofNat 8 q.1)
        flags := znOf (BitVec.ofNat 8 q.1) { s.flags with c := q.2 }
        pc := s.pc + BitVec.ofNat 16 m.bytes
        clock := s.clock + (m.cycles .modify s + 3) } := by
  rw [opShift, State.applyShift_mem, setZN_eq_znOf]
  rfl

/-- Settles O44: in accumulator mode a shift is its operation on A. -/
theorem accumulatorShiftsMoveOneBit : Obligations.AccumulatorShiftsMoveOneBit := by
  intro i s hi hacc
  obtain ⟨-, hx⟩ | ⟨hmem, -⟩ := exec_shift hi s
  · rw [hx, opShift_acc_eq]
  · exact absurd hacc hmem

/-- Settles O45: in every other mode a shift is its operation on the cell at the effective address. -/
theorem memoryShiftsMoveOneBit : Obligations.MemoryShiftsMoveOneBit := by
  intro i s hi hmem
  obtain ⟨hacc, -⟩ | ⟨-, m, hm, hbytes, hx⟩ := exec_shift hi s
  · exact absurd hacc hmem
  · simp only [State.ea_eq]
    refine ⟨m, m.cycles .modify s + 3, _, hm, ?_, fun b => Memory.read_write ..⟩
    rw [hx, opShift_mem_eq, hbytes, pcAfter]

end Sys2Proof.Machine

namespace Sys2Proof.Machine

open Sys2Proof.Says

/-! PROOFS. Branches: BCC, BCS, BEQ, BMI, BNE, BPL, BVC, BVS (47_branch.md R144-R152). -/

/-- A relative instruction is one of the eight branches, and each runs `Branch` with its own condition. -/
theorem exec_relative {i : Instr} (h : i.mode = .relative) (s : State) :
    ∃ off, i.operandBytes = [off] ∧ exec i s = .next (s.branch (branchCond i.mnemonic s.flags) off) := by
  cases i with
  | bcc off | bcs off | beq off | bmi off | bne off | bpl off | bvc off | bvs off => exact ⟨off, rfl, rfl⟩
  | _ => cases h

/-- Adding the sign-extended offset is the integer sum modulo 65536. -/
theorem add_sext16 (a : Word) (off : Byte) : a + sext16 off = BitVec.ofInt 16 (a.toNat + off.toInt) := by
  rw [BitVec.ofInt_add, BitVec.ofInt_natCast, BitVec.ofNat_toNat, BitVec.setWidth_eq]
  rfl

/-- A taken branch's extra cycles: one, and one more when the target's page is another. -/
theorem takenCycles_eq (target next : Word) :
    1 + (if hi target != hi next then 1 else 0) = if hi target = hi next then 1 else 2 := by
  by_cases h : hi target = hi next <;> simp [h]

/-- Settles O46: every relative instruction is `Branch`, its target and cycles put in integers. -/
theorem branchesAddTheSignedOffset : Obligations.BranchesAddTheSignedOffset := by
  intro i s hi
  obtain ⟨off, hoff, hx⟩ := exec_relative hi s
  refine ⟨off, hoff, ?_⟩
  rw [hx, State.branch_eq, takenCycles_eq, add_sext16]

end Sys2Proof.Machine

namespace Sys2Proof.Machine

open Sys2Proof.Says

/-! PROOFS. Jump and call: JMP, JSR, RTS (48_jump_call.md R153-R155). -/

theorem toNat_lo (w : Word) : (lo w).toNat = w.toNat % 256 := BitVec.toNat_ofNat ..

theorem toNat_hi (w : Word) : (hi w).toNat = w.toNat / 256 := by
  have hw := w.isLt
  rw [hi, BitVec.toNat_ofNat]
  omega

/-- The next cell of the pointer's own page: the page's first cell after its last, and the next address otherwise. -/
theorem word_lo_add_one (p : Word) : word (lo p + 1) (hi p) = if lo p = 0xFF then p - 255 else p + 1 := by
  have hp := p.isLt
  have hlast : lo p = 0xFF ↔ p.toNat % 256 = 255 := by rw [← BitVec.toNat_inj, toNat_lo]; rfl
  apply BitVec.eq_of_toNat_eq
  rw [toNat_word, toNat_hi, BitVec.toNat_add, toNat_lo]
  by_cases h : lo p = 0xFF
  · rw [if_pos h]
    have := hlast.1 h
    bv_omega
  · rw [if_neg h]
    have := mt hlast.2 h
    bv_omega

/-- R96 with the page wrap written as the one pointer it concerns. -/
theorem indirectHighAddr_eq (wrap : Bool) (p : Word) :
    indirectHighAddr wrap p = if wrap = true ∧ lo p = 0xFF then p - 255 else p + 1 := by
  cases wrap with
  | false => simp [indirectHighAddr]
  | true => simp only [indirectHighAddr, if_true, true_and, word_lo_add_one]

/-- JMP absolute, all of it. -/
theorem opJmp_eq (a : Word) (s : State) : opJmp a s = { s with pc := a, clock := s.clock + 2 } := by
  rw [opJmp, State.takeWord_eq]
  rfl

/-- JMP indirect, all of it. -/
theorem opJmpIndirect_eq (p : Word) (s : State) :
    opJmpIndirect p s =
      { s with
        pc := word (s.mem.read p)
          (s.mem.read (if s.cfg.jmpIndPageWrap = true ∧ lo p = 0xFF then p - 255 else p + 1))
        clock := s.clock + 4 } := by
  rw [opJmpIndirect, State.indirectTarget_eq, indirectHighAddr_eq]
  rfl

/-- Settles O47: the absolute form loads its operand word, the indirect one what its pointer names. -/
theorem jumpsSetPc : Obligations.JumpsSetPc := fun s a =>
  ⟨congrArg Host.Outcome.next (opJmp_eq a s), congrArg Host.Outcome.next (opJmpIndirect_eq a s)⟩

/-- JSR, all of it. -/
theorem opJsr_eq (a : Word) (s : State) :
    opJsr a s =
      { s with pc := a, sp := s.sp - 2, mem := (s.pushWord (s.pc + 1)).mem, clock := s.clock + 5 } := by
  have hpc : s.pc + 2 - 1 = s.pc + 1 := by bv_omega
  rw [opJsr, State.takeWord_eq]
  simp only [State.tick_pc, hpc, State.pushWord_eq, sub_one_sub_one]
  rfl

/-- Settles O48: JSR's memory is that of pushing the word PC + 1. -/
theorem jsrPushesItsLastByteAddress : Obligations.JsrPushesItsLastByteAddress := by
  intro s a
  refine ⟨_, congrArg Host.Outcome.next (opJsr_eq a s), fun b => ?_⟩
  rw [read_pushWord, ite_ite_comm]
  rintro rfl h
  exact stackAddr_ne_sub_one s.sp h.symm

theorem add_one_add_one (b : Byte) : b + 1 + 1 = b + 2 := by
  rw [BitVec.add_assoc]
  rfl

/-- RTS, all of it: two ticks, the pull of a word, and a tick. -/
theorem opRts_eq (s : State) :
    opRts s =
      { s with
        pc := word (s.mem.read (stackAddr (s.sp + 1))) (s.mem.read (stackAddr (s.sp + 2))) + 1, sp := s.sp + 2
        clock := s.clock + 5 } := by
  rw [opRts, State.pullWord_eq]
  simp only [State.tick_sp, add_one_add_one]
  rfl

/-- Settles O49: RTS adds 1 to the word it pulls, and writes SP and the clock besides. -/
theorem rtsResumesAfterThePulledWord : Obligations.RtsResumesAfterThePulledWord := fun s =>
  congrArg Host.Outcome.next (opRts_eq s)

/-- Settles O50: the cells JSR pushed to are the two above the SP it left, and they hold the word PC + 1. -/
theorem rtsReturnsFromJsr : Obligations.RtsReturnsFromJsr := by
  intro s t u a h hsp hhigh hlow
  obtain rfl : opJsr a s = t := Host.Outcome.next.inj h
  rw [opJsr_mem, read_pushWord_high] at hhigh
  rw [opJsr_mem, read_pushWord_low] at hlow
  rw [opJsr_eq] at hsp
  have hsp1 : u.sp + 1 = s.sp - 1 := by rw [hsp]; bv_omega
  have hsp2 : u.sp + 2 = s.sp := by rw [hsp, BitVec.sub_add_cancel]
  refine ⟨_, rtsResumesAfterThePulledWord u, ?_, hsp2⟩
  rw [hsp1, hsp2, hlow, hhigh, Laws.word_lo_hi, BitVec.add_assoc]
  rfl

end Sys2Proof.Machine

namespace Sys2Proof.Machine

open Sys2Proof.Says

/-! PROOFS. Flag changes, NOP, BRK and RTI (49_flag_interrupt_misc.md R156-R165, 60_exceptions.md R169, R170). -/

/-- Settles O51: each is its tick and its one flag write. -/
theorem flagChangesWriteOneFlag : Obligations.FlagChangesWriteOneFlag :=
  fun _ => ⟨rfl, rfl, rfl, rfl, rfl, rfl, rfl⟩

/-- NOP, all of it: the skipped byte takes the one cycle that the tick would. -/
theorem opNop_eq (s : State) :
    opNop s = { s with pc := if s.cfg.nopSkipsByte then s.pc + 1 else s.pc, clock := s.clock + 1 } := by
  unfold opNop
  split <;> rfl

/-- Settles O55: only the skip moves PC. -/
theorem nopOnlyPassesTime : Obligations.NopOnlyPassesTime := fun s =>
  congrArg Host.Outcome.next (opNop_eq s)

/-- The return address BRK pushes: past the signature byte when BRK_SIGNATURE holds (R163). -/
def brkReturn (s : State) : Word := if s.cfg.brkSignature then s.pc + 1 else s.pc

/-- BRK, all of it: its frame lies in page 1, so the vector is read from memory as it was. -/
theorem opBrk_eq (s : State) :
    opBrk s =
      { s with
        pc := word (s.mem.read 0xFFFE) (s.mem.read 0xFFFF), sp := s.sp - 3, mem := breakFrame (s.setPc (brkReturn s))
        flags := { s.flags with i := true, b := true }, clock := s.clock + 6 } := by
  have hsp : s.sp - 1 - 1 - 1 = s.sp - 3 := by bv_omega
  unfold opBrk brkReturn
  split
  all_goals
    simp only [State.enterBreak_eq, read_breakFrame_above _ (a := breakVector) (by decide),
      read_breakFrame_above _ (a := breakVector + 1) (by decide), ← hsp]
    rfl

/-- BRK's frame in the order it is pushed. -/
theorem read_breakFrame_pushed (s : State) (a : Word) :
    (breakFrame s).read a =
      if a = stackAddr s.sp then hi s.pc else if a = stackAddr (s.sp - 1) then lo s.pc
      else if a = stackAddr (s.sp - 2) then pack s.flags ||| 0x10 else s.mem.read a := by
  by_cases hhigh : a = stackAddr s.sp
  · rw [if_pos hhigh, hhigh, read_breakFrame_high]
  by_cases hlow : a = stackAddr (s.sp - 1)
  · rw [if_neg hhigh, if_pos hlow, hlow, read_breakFrame_low]
  · rw [read_breakFrame, if_neg hhigh, if_neg hhigh, if_neg hlow, if_neg hlow, sub_one_sub_one]

/-- Settles O52: BRK's memory is the frame of its return address. -/
theorem brkTakesTheBreakTrap : Obligations.BrkTakesTheBreakTrap :=
  fun s => ⟨_, congrArg Host.Outcome.next (opBrk_eq s), read_breakFrame_pushed _⟩

/-- RTI, all of it: two ticks and the trap return. -/
theorem opRti_eq (s : State) :
    opRti s =
      { s with
        flags := unpack (s.mem.read (stackAddr (s.sp + 1))) s.flags
        pc := word (s.mem.read (stackAddr (s.sp + 2))) (s.mem.read (stackAddr (s.sp + 3))), sp := s.sp + 3
        clock := s.clock + 5 } := by
  have hsp3 : s.sp + 2 + 1 = s.sp + 3 := by bv_omega
  rw [opRti, State.returnFromBreak_eq]
  simp only [State.tick_sp, add_one_add_one, hsp3]
  rfl

/-- Settles O53: `Unpack` writes the six flags bit by bit and keeps B. -/
theorem rtiPullsStatusThenPc : Obligations.RtiPullsStatusThenPc := fun s =>
  congrArg Host.Outcome.next (opRti_eq s)

/-- Settles O54: the cells BRK pushed to are the three above the SP it left. -/
theorem rtiReturnsFromBrk : Obligations.RtiReturnsFromBrk := by
  intro s t u h hsp hhigh hlow hstatus
  obtain rfl : opBrk s = t := Host.Outcome.next.inj h
  rw [opBrk_eq] at hsp hhigh hlow hstatus
  have hsp1 : u.sp + 1 = s.sp - 2 := by rw [hsp]; bv_omega
  have hsp2 : u.sp + 2 = s.sp - 1 := by rw [hsp]; bv_omega
  have hsp3 : u.sp + 3 = s.sp := by rw [hsp, BitVec.sub_add_cancel]
  have hp : u.mem.read (stackAddr (u.sp + 1)) = pack s.flags ||| 0x10 := by
    rw [hsp1, hstatus]
    exact read_breakFrame_status _
  have hret : word (u.mem.read (stackAddr (u.sp + 2))) (u.mem.read (stackAddr (u.sp + 3))) = brkReturn s := by
    rw [hsp2, hsp3, hlow, hhigh]
    exact (congrArg₂ word (read_breakFrame_low _) (read_breakFrame_high _)).trans (Laws.word_lo_hi _)
  refine ⟨_, rtiPullsStatusThenPc u, hret, hsp3, ?_⟩
  rw [← unpack_pack_or_break s.flags u.flags, ← hp]
  rfl

end Sys2Proof.Machine

namespace Sys2Proof.Machine

open Sys2Proof.Says

/-! PROOFS. Reset, RES and the I flag (70_reset_and_hazards.md R182-R185, 49_flag_interrupt_misc.md R166,
60_exceptions.md R174). -/

/-! ## Reset -/

theorem resetSequence_eq_resetOf (s : State) : s.resetSequence = resetOf s := by
  rw [State.resetSequence_eq]
  rfl

/-- Settles O56: RES and the host run the one reset sequence. -/
theorem resetSequenceSetsEveryRegister : Obligations.ResetSequenceSetsEveryRegister := fun s =>
  ⟨congrArg Host.Outcome.next (resetSequence_eq_resetOf s), resetSequence_eq_resetOf s⟩

/-- Settles O57: the reset state names no field of the old state but memory, configuration, clock and log. -/
theorem resetForgetsTheRegisters : Obligations.ResetForgetsTheRegisters := by
  refine ⟨fun s t hmem hcfg => ?_, fun cfg a x y sp pc f m => ⟨rfl, rfl⟩⟩
  simp only [apiReset, resetSequence_eq_resetOf, resetOf, hmem, hcfg]

/-! ## The I flag -/

/-- Status bytes of flags that differ in I alone differ in bit 2 alone. -/
theorem pack_setI_or (f : Flags) (i : Bool) (k : Byte) :
    pack { f with i := i } ||| k ||| 0x04 = pack f ||| k ||| 0x04 := by
  ext j hj
  interval_cases j <;> simp [pack]

/-- Settles O20: the two runs of `step_twin` with I alone replaced. -/
theorem interruptFlagMasksNothing : Obligations.InterruptFlagMasksNothing := by
  intro s t v h
  obtain ⟨u, hu, hrest, -, hd, hmem⟩ := step_twin (p := v) (q := s.flags.d) (.inl rfl) h
  have hflags : { u.flags with i := t.flags.i } = t.flags := calc
    _ = { t.flags with d := u.flags.d } := congrArg (fun u' : State => { u'.flags with i := t.flags.i }) hrest
    _ = t.flags := by rw [hd rfl]
  refine ⟨u, hu, ?_, ?_, ?_, ?_, ?_, ?_, ?_, hflags, fun a hne => ?mem⟩
  case mem =>
    obtain ⟨hcell, k, hua, hta⟩ := hmem a hne
    rw [hua, hta]
    exact ⟨hcell, pack_setI_or s.flags v k⟩
  all_goals rw [hrest]

end Sys2Proof.Machine

namespace Sys2Proof.Machine

open Sys2Proof.Says

/-! PROOFS. The cycles of every instruction (70_reset_and_hazards.md R191-R194). -/

/-! ## The table's cycles, by class and mode -/

/-- The access class of a mnemonic that resolves an operand (R83). -/
def accessOf : Mnemonic → Option Access
  | .lda | .ldx | .ldy | .and | .eor | .ora | .bit | .adc | .sbc | .cmp | .cpx | .cpy => some .read
  | .sta | .stx | .sty => some .write
  | .asl | .lsr | .rol | .ror | .inc | .dec => some .modify
  | _ => none

/-- The cycles after the address is resolved: the read or the write, and for RMW the read, the tick and the write (R98,
R99). -/
def Access.cycles : Access → Nat
  | .read | .write => 1
  | .modify => 3

/-- The cycles of resolving an operand of a mode, a page crossing of class R left out (R86-R95). -/
def resolveCycles (cls : Access) : Mode → Nat
  | .immediate => 0
  | .zeroPage => 1
  | .zeroPageX | .zeroPageY | .absolute => 2
  | .absoluteX | .absoluteY => if cls = .read then 2 else 3
  | .indexedIndirect => 4
  | .indirectIndexed => if cls = .read then 3 else 4
  | _ => 0

/-- The cycles of an instruction without its penalty, the opcode fetch included. -/
def baseCycles (mn : Mnemonic) (mode : Mode) : Nat :=
  match accessOf mn with
  | some cls => if mode = .accumulator then 2 else 1 + (resolveCycles cls mode + cls.cycles)
  | none =>
    match mn with
    | .pha | .php => 3
    | .pla | .plp => 4
    | .jmp => if mode = .indirect then 5 else 3
    | .jsr | .rts | .rti => 6
    | .brk => 7
    | .res => 8
    | _ => 2

theorem baseCycles_of_access {mn : Mnemonic} {cls : Access} (hcls : accessOf mn = some cls) (mode : Mode) :
    baseCycles mn mode = if mode = .accumulator then 2 else 1 + (resolveCycles cls mode + cls.cycles) := by
  unfold baseCycles
  rw [hcls]

/-- The rows of R194 are these cycles. -/
theorem cycles_of_mem_opTable {op : Byte} {mn : Mnemonic} {mode : Mode} {c : Nat} (h : (op, mn, mode, c) ∈ opTable) :
    c = baseCycles mn mode := by
  have hrows : ∀ e ∈ opTable, e.2.2.2 = baseCycles e.2.1 e.2.2.1 := by decide +kernel
  exact hrows _ h

theorem accessOf_eq_read_iff (mn : Mnemonic) : accessOf mn = some .read ↔ mn ∈ classR := by
  cases mn <;> decide

theorem accessOf_eq_write_iff (mn : Mnemonic) : accessOf mn = some .write ↔ mn = .sta ∨ mn = .stx ∨ mn = .sty := by
  cases mn <;> decide

theorem accessOf_eq_modify_iff (mn : Mnemonic) :
    accessOf mn = some .modify ↔ mn = .inc ∨ mn = .dec ∨ mn ∈ shifts := by
  cases mn <;> decide

/-! ## Memory operands -/

/-- The mode of a memory operand (R87-R95). -/
def MemOperand.mode : MemOperand → Mode
  | .zp _ => .zeroPage
  | .zpX _ => .zeroPageX
  | .zpY _ => .zeroPageY
  | .abs _ => .absolute
  | .absX _ => .absoluteX
  | .absY _ => .absoluteY
  | .indX _ => .indexedIndirect
  | .indY _ => .indirectIndexed

theorem mode_of_memOperandOf {mode : Mode} {bytes : List Byte} {m : MemOperand} (h : memOperandOf mode bytes = some m) :
    mode = m.mode := by
  unfold memOperandOf at h
  split at h <;> cases h <;> rfl

section

variable {i : Instr} {s t : State} {m : MemOperand} {cls : Access}

/-- The resolver's cycles are the mode's, and one more where class R crosses a page. -/
theorem MemOperand.cycles_eq (hm : memOperand? i = some m) :
    m.cycles cls s = resolveCycles cls i.mode + (if cls = .read ∧ crossesPage i s = true then 1 else 0) := by
  have hmode : i.mode = m.mode := mode_of_memOperandOf hm
  rw [hmode, crossesPage, hm]
  cases m <;> cases cls <;>
    simp [MemOperand.cycles, MemOperand.mode, resolveCycles, indexCycle, crossed, Memory.zpWord]

theorem penalty_of_ne_relative (h : i.mode ≠ .relative) (s : State) :
    penalty i s = if i.mnemonic ∈ classR ∧ crossesPage i s = true then 1 else 0 := by
  unfold penalty
  split
  next hmode _ => exact absurd hmode h
  next => simp

theorem penalty_eq_zero (hcls : accessOf i.mnemonic ≠ some .read) (hrel : i.mode ≠ .relative) : penalty i s = 0 := by
  have hread : i.mnemonic ∉ classR := mt (accessOf_eq_read_iff _).2 hcls
  rw [penalty_of_ne_relative hrel, if_neg fun h => hread h.1]

/-- The completed instruction took the cycles of its pair and its penalty; the opcode fetch's one came before `s`. -/
def TakesCycles (i : Instr) (s t : State) : Prop :=
  t.clock + 1 = s.clock + baseCycles i.mnemonic i.mode + penalty i s

/-- An instruction of a class takes its base cycles, and one more where class R crosses a page (R192). -/
theorem takesCycles_of_clock (hcls : accessOf i.mnemonic = some cls) (hacc : i.mode ≠ .accumulator)
    (hrel : i.mode ≠ .relative)
    (ht : t.clock = s.clock + (resolveCycles cls i.mode + (if cls = .read ∧ crossesPage i s = true then 1 else 0) +
      cls.cycles)) : TakesCycles i s t := by
  have hread : i.mnemonic ∈ classR ↔ cls = .read := by rw [← accessOf_eq_read_iff, hcls, Option.some.injEq]
  rw [TakesCycles, ht, baseCycles_of_access hcls, if_neg hacc, penalty_of_ne_relative hrel]
  simp only [hread]
  omega

/-! ## The instructions that resolve an operand -/

theorem takesCycles_of_memOperand (hcls : accessOf i.mnemonic = some cls) (hm : memOperand? i = some m)
    (ht : t.clock = s.clock + (m.cycles cls s + cls.cycles)) : TakesCycles i s t := by
  have hmode : i.mode = m.mode := mode_of_memOperandOf hm
  refine takesCycles_of_clock hcls ?_ ?_ (by rw [ht, MemOperand.cycles_eq hm])
  all_goals
    rw [hmode]
    cases m <;> nofun

/-- A class R operand is the immediate byte, or the instruction's memory operand. -/
theorem operand?_eq_some {o : Operand} (ho : operand? i = some o) :
    (∃ v, o = .imm v ∧ i.mode = .immediate) ∨ ∃ m, o = .mem m ∧ memOperand? i = some m := by
  unfold operand? at ho
  split at ho
  next hmode _ => exact .inl ⟨_, (Option.some.inj ho).symm, hmode⟩
  next =>
    obtain ⟨m, hm, rfl⟩ := Option.map_eq_some_iff.1 ho
    exact .inr ⟨m, rfl, hm⟩

theorem takesCycles_of_operand (hcls : accessOf i.mnemonic = some .read) {o : Operand} (ho : operand? i = some o)
    (ht : t.clock = s.clock + o.cycles s) : TakesCycles i s t := by
  obtain ⟨v, rfl, hmode⟩ | ⟨m, rfl, hm⟩ := operand?_eq_some ho
  · have hcross : crossesPage i s = false := by simp [crossesPage, memOperand?, memOperandOf, hmode]
    refine takesCycles_of_clock hcls ?_ ?_ (by rw [ht, hmode, hcross]; rfl)
    all_goals
      rw [hmode]
      nofun
  · exact takesCycles_of_memOperand hcls hm ht

/-- An operation that reads its operand and moves the clock no further. -/
theorem clock_of_read {op : Operand → State}
    (hop : ∃ o, operand? i = some o ∧ o.bytes = i.mode.operandCount ∧ exec i s = .next (op o))
    (hclock : ∀ o, (op o).clock = (s.readOperand o).2.clock) (h : exec i s = .next t) :
    ∃ o, operand? i = some o ∧ t.clock = (s.readOperand o).2.clock := by
  obtain ⟨o, ho, -, hx⟩ := hop
  obtain rfl := Host.Outcome.next.inj (hx.symm.trans h)
  exact ⟨o, ho, hclock o⟩

theorem clock_of_classR (hi : i.mnemonic ∈ classR) (h : exec i s = .next t) :
    ∃ o, operand? i = some o ∧ t.clock = (s.readOperand o).2.clock := by
  simp only [classR, List.mem_cons, List.not_mem_nil, or_false] at hi
  obtain hi | hi | hi | hi | hi | hi | hi | hi | hi | hi | hi | hi := hi
  · exact clock_of_read (exec_lda hi s) (fun _ => rfl) h
  · exact clock_of_read (exec_ldx hi s) (fun _ => rfl) h
  · exact clock_of_read (exec_ldy hi s) (fun _ => rfl) h
  · exact clock_of_read (exec_and hi s) (fun _ => rfl) h
  · exact clock_of_read (exec_eor hi s) (fun _ => rfl) h
  · exact clock_of_read (exec_ora hi s) (fun _ => rfl) h
  · exact clock_of_read (exec_bit hi s) (fun _ => rfl) h
  · obtain ⟨o, ho, -, hx⟩ := exec_adc hi s
    obtain ⟨-, rfl⟩ := opAdc_next (hx.symm.trans h)
    exact ⟨o, ho, rfl⟩
  · obtain ⟨o, ho, -, hx⟩ := exec_sbc hi s
    obtain ⟨-, rfl⟩ := opSbc_next (hx.symm.trans h)
    exact ⟨o, ho, rfl⟩
  · exact clock_of_read (exec_cmp hi s) (fun _ => rfl) h
  · exact clock_of_read (exec_cpx hi s) (fun _ => rfl) h
  · exact clock_of_read (exec_cpy hi s) (fun _ => rfl) h

/-- An operation on a memory operand whose clock is that of a store or a modification. -/
theorem takesCycles_of_operation (hcls : accessOf i.mnemonic = some cls) {op : MemOperand → State}
    (hop : ∃ m, memOperand? i = some m ∧ m.bytes = i.mode.operandCount ∧ exec i s = .next (op m))
    (hclock : ∀ m, (op m).clock = s.clock + (m.cycles cls s + cls.cycles)) (h : exec i s = .next t) :
    TakesCycles i s t := by
  obtain ⟨m, hm, -, hx⟩ := hop
  obtain rfl := Host.Outcome.next.inj (hx.symm.trans h)
  exact takesCycles_of_memOperand hcls hm (hclock m)

theorem store_clock (s : State) (m : MemOperand) (v : Byte) :
    (s.store m v).clock = s.clock + (m.cycles .write s + Access.write.cycles) := by
  rw [State.store_eq]
  rfl

theorem modify_clock (s : State) (m : MemOperand) (g : Byte → Byte) :
    (s.modify m g).2.2.clock = s.clock + (m.cycles .modify s + Access.modify.cycles) := by
  rw [State.modify_eq]
  rfl

/-- Every instruction of class R, W or RMW. -/
theorem takesCycles_of_access (hcls : accessOf i.mnemonic = some cls) (h : exec i s = .next t) : TakesCycles i s t := by
  cases cls with
  | read =>
    obtain ⟨o, ho, ht⟩ := clock_of_classR ((accessOf_eq_read_iff _).1 hcls) h
    exact takesCycles_of_operand hcls ho (by rw [ht, State.readOperand_eq])
  | write =>
    obtain hi | hi | hi := (accessOf_eq_write_iff _).1 hcls
    · exact takesCycles_of_operation hcls (exec_sta hi s) (fun m => store_clock s m _) h
    · exact takesCycles_of_operation hcls (exec_stx hi s) (fun m => store_clock s m _) h
    · exact takesCycles_of_operation hcls (exec_sty hi s) (fun m => store_clock s m _) h
  | modify =>
    obtain hi | hi | hi := (accessOf_eq_modify_iff _).1 hcls
    · exact takesCycles_of_operation hcls (exec_inc hi s) (fun m => modify_clock s m (· + 1)) h
    · exact takesCycles_of_operation hcls (exec_dec hi s) (fun m => modify_clock s m (· - 1)) h
    · obtain ⟨hacc, hx⟩ | ⟨-, hop⟩ := exec_shift hi s
      · obtain rfl := Host.Outcome.next.inj (hx.symm.trans h)
        rw [TakesCycles, opShift_acc_eq, baseCycles_of_access hcls, if_pos hacc,
          penalty_eq_zero (by rw [hcls]; nofun) (by rw [hacc]; nofun)]
      · exact takesCycles_of_operation hcls hop (fun m => by rw [opShift_mem_eq]; rfl) h

end

/-! ## The others -/

theorem takesCycles_branch {i : Instr} {s t : State} (hrel : i.mode = .relative) (h : exec i s = .next t) :
    TakesCycles i s t := by
  obtain ⟨off, hoff, hx⟩ := exec_relative hrel s
  obtain rfl := Host.Outcome.next.inj (hx.symm.trans h)
  have hbase : baseCycles i.mnemonic .relative = 2 := by
    cases i with
    | bcc | bcs | beq | bmi | bne | bpl | bvc | bvs => rfl
    | _ => cases hrel
  simp only [TakesCycles, State.branch_eq, penalty, hrel, hoff, hbase]
  by_cases hc : branchCond i.mnemonic s.flags = true
  · simp only [hc, if_true]
    split <;> omega
  · simp only [hc]
    rfl

/-- An instruction that resolves no operand and is no branch has no penalty. -/
theorem takesCycles_of_no_access {i : Instr} {s t : State} (hcls : accessOf i.mnemonic = none)
    (hrel : i.mode ≠ .relative) (ht : t.clock + 1 = s.clock + baseCycles i.mnemonic i.mode) : TakesCycles i s t := by
  rw [TakesCycles, ht, penalty_eq_zero (by rw [hcls]; nofun) hrel]
  rfl

/-- Every completed instruction takes the cycles of its pair and its penalty. -/
theorem exec_takesCycles {i : Instr} {s t : State} (h : exec i s = .next t) : TakesCycles i s t := by
  cases hcls : accessOf i.mnemonic with
  | some cls => exact takesCycles_of_access hcls h
  | none =>
    cases i with
    | bcc | bcs | beq | bmi | bne | bpl | bvc | bvs => exact takesCycles_branch rfl h
    | tax | tay | txa | tya | tsx | txs | inx | iny | dex | dey
    | clc | cld | cli | clv | sec | sed | sei | pha | php | pla | plp =>
      cases h
      exact takesCycles_of_no_access hcls nofun rfl
    | jmpAbs a =>
      cases h
      exact takesCycles_of_no_access hcls nofun (by rw [opJmp_eq]; rfl)
    | jmpInd p =>
      cases h
      exact takesCycles_of_no_access hcls nofun (by rw [opJmpIndirect_eq]; rfl)
    | jsr a =>
      cases h
      exact takesCycles_of_no_access hcls nofun (by rw [opJsr_eq]; rfl)
    | rts =>
      cases h
      exact takesCycles_of_no_access hcls nofun (by rw [opRts_eq]; rfl)
    | rti =>
      cases h
      exact takesCycles_of_no_access hcls nofun (by rw [opRti_eq]; rfl)
    | res =>
      cases h
      exact takesCycles_of_no_access hcls nofun (by rw [opRes, resetSequence_eq_resetOf]; rfl)
    | brk =>
      cases h
      exact takesCycles_of_no_access hcls nofun (by rw [opBrk_eq]; rfl)
    | nop =>
      cases h
      exact takesCycles_of_no_access hcls nofun (by rw [opNop_eq]; rfl)
    | _ => cases hcls

theorem eq_res_of_mnemonic {i : Instr} (h : i.mnemonic = .res) : i = .res := by
  cases i <;> cases h
  rfl

/-- The cycles of `exec`, by the instruction's row of R194; RES has no row. -/
theorem exec_clock {i : Instr} {s t : State} (h : exec i s = .next t) :
    (∀ (op : Byte) (c : Nat), (op, i.mnemonic, i.mode, c) ∈ opTable → t.clock + 1 = s.clock + c + penalty i s) ∧
      (i.mnemonic = .res → t.clock + 1 = s.clock + 8) := by
  have ht := exec_takesCycles h
  refine ⟨fun op c hrow => ?_, fun hi => ?_⟩
  · rw [cycles_of_mem_opTable hrow]
    exact ht
  · obtain rfl := eq_res_of_mnemonic hi
    exact ht

/-- Settles O15: the step is the opcode fetch, one cycle, and then `exec`. -/
theorem everyOpcodeTakesItsTableCycles : Obligations.EveryOpcodeTakesItsTableCycles := by
  refine ⟨fun _ _ _ => exec_clock, fun s t i rest hdecode h => ?_⟩
  obtain ⟨hm, hr⟩ := running_of_step_next h
  have hnext : s.pc + 1 + 1 = s.pc + 2 := BitVec.add_assoc ..
  have hbytes : s.bytesAtPc = [s.mem.read s.pc, s.mem.read (s.pc + 1), s.mem.read (s.pc + 2)] := by
    rw [← hnext]
    rfl
  rw [hbytes] at hdecode
  rw [stepRunsTheDecodedInstruction s i rest hm hr hdecode] at h
  obtain ⟨htable, hres⟩ := exec_clock h
  refine ⟨fun op c hrow => ?_, fun hi => ?_⟩
  · have hclock : t.clock + 1 = s.clock + 1 + c + penalty i _ := htable op c hrow
    omega
  · have hclock : t.clock + 1 = s.clock + 1 + 8 := hres hi
    omega

end Sys2Proof.Machine
